-- ==== Sys2Proof/Word.lean ====
section
/-! DEFINITION. Word.lean: the word of this hardware, a PATTERN: a string of bits of some width
(spec/00_scope.md R8), with its unsigned reading. Every data port carries one pattern. -/
namespace Sys2Proof

/-- A pattern (R8): `width` bits, bit `width − 1` the most significant. The width `W` of an instance is
a static parameter (R6), so a pattern carries the width it has; a port of an instance accepts only
patterns of width `W` (R33). -/
structure Pattern where
  width : Nat
  bits  : BitVec width
deriving DecidableEq, Repr

/-- The 6-bit op code of the `op` port (R20). -/
abbrev OpCode := BitVec 6

/-- `uval(p)`, the unsigned value of a pattern (R8). -/
def Pattern.uval (p : Pattern) : Nat := p.bits.toNat

/-- `upat(v)`, the pattern of `w` bits whose unsigned value is `v`, for `v < 2^w` (R9). -/
def upat (w v : Nat) : Pattern := ⟨w, BitVec.ofNat w v⟩

/-- The all-zeros pattern, as the assembler fills an operand that a mnemonic omits (R52). -/
def Pattern.zeros (w : Nat) : Pattern := ⟨w, 0#w⟩

end Sys2Proof
end

