-- ==== Sys2Proof/Config.lean ====
section
/-! DEFINITION. Config.lean: the static parameters of an instance (spec/00_scope.md R5, R6), when they are
legal, and the one free value of the spec, the bits of `y` after a failure. -/
namespace Sys2Proof

/-- The four static parameters (R5), named as the spec names them. They are fixed when the instance is
built and no operation reads or writes them as state (R18, R137). -/
structure Config where
  /-- bits in one digit -/
  DIGIT_BITS : Nat
  /-- digits in a value -/
  N : Nat
  /-- bits in the mantissa field of a Float value -/
  MB : Nat
  /-- the mantissa field of NAN and NEG_NAN, an `MB`-bit number -/
  NAN_PAYLOAD : Nat
deriving DecidableEq, Repr

/-- `W = N · DIGIT_BITS`, the total bit width of every data port (R6). -/
def Config.W (c : Config) : Nat := c.N * c.DIGIT_BITS

/-- `E = W − MB − 1`, the width of the exponent field (R6). -/
def Config.E (c : Config) : Nat := c.W - c.MB - 1

/-- The parameters are legal for the integer units: `DIGIT_BITS ≥ 1` and `N ≥ 1`, so `W ≥ 1` (R5, R6:
"the integer rules hold for every `W ≥ 1`"). -/
abbrev Config.IntegerLegal (c : Config) : Prop := 1 ≤ c.DIGIT_BITS ∧ 1 ≤ c.N

/-- The parameters are legal for the layout builder too: `1 ≤ MB ≤ W − 3`, which is `E ≥ 2`, and
`1 ≤ NAN_PAYLOAD ≤ 2^MB − 1` (R5, R6, R143). -/
abbrev Config.LayoutLegal (c : Config) : Prop :=
  c.IntegerLegal ∧ 1 ≤ c.MB ∧ c.MB + 3 ≤ c.W ∧ 1 ≤ c.NAN_PAYLOAD ∧ c.NAN_PAYLOAD < 2 ^ c.MB

/-- The default of `NAN_PAYLOAD`: only the top mantissa bit set (R5, R103). -/
def Config.defaultPayload (mb : Nat) : Nat := 2 ^ (mb - 1)

/-- DESIGN CHOICE (unsafe for a claim about `State.reset` alone, notes/assumptions/2.md): the spec leaves the
parameters open; the reset state of the model is the instance with `(W, MB) = (64, 52)`, the first of the two
that the spec's document tests (R116), in eight digits of eight bits. -/
def Config.standard : Config :=
  { DIGIT_BITS := 8, N := 8, MB := 52, NAN_PAYLOAD := Config.defaultPayload 52 }

/-- FREE VALUE (safe, notes/assumptions/5.md): the bits that stand on `y` after a failure, "any value, different on
every transaction" (R24). It has no body: `freeY n w` is the `n`-th draw at width `w`, and nothing can be proved
of it. -/
opaque Config.freeY (n w : Nat) : BitVec w

end Sys2Proof
end

