-- ==== Sys2Proof/Syntax.lean ====
section
/-! DEFINITION. Syntax.lean: the 32 operations with the operands each names (spec/30_encoding.md R42 to R44,
R52), and the command, the triple that travels on the three input ports (R40). -/
namespace Sys2Proof

/-- One constructor per row of spec/opcode_table.json. An operation that ignores a port has no operand for it
(R20, R52). -/
inductive Instr where
  /-- 0x00, `checked_add`: `a` signed, `b` signed (R56) -/
  | add (a b : Pattern)
  /-- 0x01, `checked_sub`: `a` signed minuend, `b` signed subtrahend (R57) -/
  | sub (a b : Pattern)
  /-- 0x02, `checked_add_unsigned`: `a` signed, `b` unsigned (R60) -/
  | addu (a b : Pattern)
  /-- 0x03, `checked_sub_unsigned`: `a` signed minuend, `b` unsigned subtrahend (R61) -/
  | subu (a b : Pattern)
  /-- 0x04, `checked_neg`: `a` signed (R66) -/
  | neg (a : Pattern)
  /-- 0x05, `checked_abs`: `a` signed (R67) -/
  | abs (a : Pattern)
  /-- 0x06, `checked_mul`: `a` signed, `b` signed (R71) -/
  | mul (a b : Pattern)
  /-- 0x08, `checked_div`: `a` signed dividend, `b` signed divisor (R77) -/
  | div (a b : Pattern)
  /-- 0x09, `checked_rem` (R78) -/
  | rem (a b : Pattern)
  /-- 0x0A, `checked_div_euclid` (R81) -/
  | dive (a b : Pattern)
  /-- 0x0B, `checked_rem_euclid` (R82) -/
  | reme (a b : Pattern)
  /-- 0x20, ZERO (R89) -/
  | fcZero
  /-- 0x21, NEG_ZERO (R90) -/
  | fcNegZero
  /-- 0x22, ONE (R91) -/
  | fcOne
  /-- 0x23, NEG_ONE (R92) -/
  | fcNegOne
  /-- 0x24, MIN_POSITIVE (R93) -/
  | fcMinPositive
  /-- 0x25, MAX_NEGATIVE (R94) -/
  | fcMaxNegative
  /-- 0x26, MAX (R95) -/
  | fcMax
  /-- 0x27, MIN (R96) -/
  | fcMin
  /-- 0x28, MIN_POSITIVE_SUBNORMAL (R97) -/
  | fcMinPositiveSubnormal
  /-- 0x29, MAX_NEGATIVE_SUBNORMAL (R98) -/
  | fcMaxNegativeSubnormal
  /-- 0x2A, MAX_SUBNORMAL (R99) -/
  | fcMaxSubnormal
  /-- 0x2B, MIN_SUBNORMAL (R100) -/
  | fcMinSubnormal
  /-- 0x2C, INFINITY (R101) -/
  | fcInfinity
  /-- 0x2D, NEG_INFINITY (R102) -/
  | fcNegInfinity
  /-- 0x2E, NAN (R103) -/
  | fcNan
  /-- 0x2F, NEG_NAN (R104) -/
  | fcNegNan
  /-- 0x30, RADIX (R107) -/
  | fcRadix
  /-- 0x31, MANTISSA_DIGITS (R108) -/
  | fcMantissaDigits
  /-- 0x32, EXP_BIAS (R109) -/
  | fcExpBias
  /-- 0x33, MIN_EXP (R110) -/
  | fcMinExp
  /-- 0x34, MAX_EXP (R111) -/
  | fcMaxExp
deriving DecidableEq, Repr

/-- A command: the triple `(op, a, b)` that the host presents on the three input ports (R20, R40). -/
structure Command where
  op : OpCode
  a  : Pattern
  b  : Pattern
deriving DecidableEq, Repr

end Sys2Proof
end

