-- ==== Sys2Proof/Decode.lean ====
section
/-! DEFINITION. Decode.lean: from a command to an instruction or a rejection by name, and back
(spec/30_encoding.md). The decoder reads the 6-bit op code alone (R47); the operands are whole ports (R46). After it
the encoder, written from the same tables, the command word of R40, and the names of R52 and R53. -/
namespace Sys2Proof

/-- Why a command is no instruction. -/
inductive DecodeError where
  /-- the op code is one of the 32 reserved codes of R49 (R50) -/
  | reservedOpCode (op : OpCode)
  /-- an operand port was given a pattern that is not exactly `W` bits wide (R33) -/
  | portWidth
  /-- the number has more than the `2·W + 6` bits of a command word (R40) -/
  | wordTooLong
deriving DecidableEq, Repr

/-- What decoding answers. -/
inductive Decoded where
  | instr (i : Instr)
  | rejected (e : DecodeError)
deriving DecidableEq, Repr

/-- The op-code map (R42, R43, R44): the operation of an op code, with the operands it names taken from the two
ports; nothing for a reserved code. -/
def decodeOp (op : OpCode) (a b : Pattern) : Option Instr :=
  match op with
  | 0x00#6 => some (.add a b)
  | 0x01#6 => some (.sub a b)
  | 0x02#6 => some (.addu a b)
  | 0x03#6 => some (.subu a b)
  | 0x04#6 => some (.neg a)
  | 0x05#6 => some (.abs a)
  | 0x06#6 => some (.mul a b)
  | 0x08#6 => some (.div a b)
  | 0x09#6 => some (.rem a b)
  | 0x0A#6 => some (.dive a b)
  | 0x0B#6 => some (.reme a b)
  | 0x20#6 => some .fcZero
  | 0x21#6 => some .fcNegZero
  | 0x22#6 => some .fcOne
  | 0x23#6 => some .fcNegOne
  | 0x24#6 => some .fcMinPositive
  | 0x25#6 => some .fcMaxNegative
  | 0x26#6 => some .fcMax
  | 0x27#6 => some .fcMin
  | 0x28#6 => some .fcMinPositiveSubnormal
  | 0x29#6 => some .fcMaxNegativeSubnormal
  | 0x2A#6 => some .fcMaxSubnormal
  | 0x2B#6 => some .fcMinSubnormal
  | 0x2C#6 => some .fcInfinity
  | 0x2D#6 => some .fcNegInfinity
  | 0x2E#6 => some .fcNan
  | 0x2F#6 => some .fcNegNan
  | 0x30#6 => some .fcRadix
  | 0x31#6 => some .fcMantissaDigits
  | 0x32#6 => some .fcExpBias
  | 0x33#6 => some .fcMinExp
  | 0x34#6 => some .fcMaxExp
  | _ => none

/-- Decoding a command on an instance of width `w`: total, and rejecting by name (R47, R50, R33). -/
def decode (w : Nat) (c : Command) : Decoded :=
  if c.a.width = w ∧ c.b.width = w then
    match decodeOp c.op c.a c.b with
    | some i => .instr i
    | none => .rejected (.reservedOpCode c.op)
  else .rejected .portWidth

/-- The command in a command word `cmd = {op, a, b}` of `2·w + 6` bits: `op` in bits `2w+5 : 2w`, `a` in bits
`2w−1 : w`, `b` in bits `w−1 : 0` (R40); nothing when the number is longer than a command word. -/
def Command.ofWord (w cmd : Nat) : Option Command :=
  if cmd < 2 ^ (2 * w + 6) then
    some { op := BitVec.ofNat 6 (cmd / 2 ^ (2 * w)), a := upat w (cmd / 2 ^ w), b := upat w cmd }
  else none

/-- Decoding a command word. -/
def decodeWord (w cmd : Nat) : Decoded :=
  match Command.ofWord w cmd with
  | some c => decode w c
  | none => .rejected .wordTooLong

/-- The op code of an instruction (R42, R43, R44). -/
def Instr.opCode : Instr → OpCode
  | .add _ _ => 0x00#6
  | .sub _ _ => 0x01#6
  | .addu _ _ => 0x02#6
  | .subu _ _ => 0x03#6
  | .neg _ => 0x04#6
  | .abs _ => 0x05#6
  | .mul _ _ => 0x06#6
  | .div _ _ => 0x08#6
  | .rem _ _ => 0x09#6
  | .dive _ _ => 0x0A#6
  | .reme _ _ => 0x0B#6
  | .fcZero => 0x20#6
  | .fcNegZero => 0x21#6
  | .fcOne => 0x22#6
  | .fcNegOne => 0x23#6
  | .fcMinPositive => 0x24#6
  | .fcMaxNegative => 0x25#6
  | .fcMax => 0x26#6
  | .fcMin => 0x27#6
  | .fcMinPositiveSubnormal => 0x28#6
  | .fcMaxNegativeSubnormal => 0x29#6
  | .fcMaxSubnormal => 0x2A#6
  | .fcMinSubnormal => 0x2B#6
  | .fcInfinity => 0x2C#6
  | .fcNegInfinity => 0x2D#6
  | .fcNan => 0x2E#6
  | .fcNegNan => 0x2F#6
  | .fcRadix => 0x30#6
  | .fcMantissaDigits => 0x31#6
  | .fcExpBias => 0x32#6
  | .fcMinExp => 0x33#6
  | .fcMaxExp => 0x34#6

/-- What the assembler puts on port `a`: the operand, or all zeros where the mnemonic omits it (R52). -/
def Instr.portA (w : Nat) : Instr → Pattern
  | .add a _ | .sub a _ | .addu a _ | .subu a _ | .mul a _ => a
  | .div a _ | .rem a _ | .dive a _ | .reme a _ => a
  | .neg a | .abs a => a
  | .fcZero | .fcNegZero | .fcOne | .fcNegOne | .fcMinPositive | .fcMaxNegative | .fcMax | .fcMin => .zeros w
  | .fcMinPositiveSubnormal | .fcMaxNegativeSubnormal | .fcMaxSubnormal | .fcMinSubnormal => .zeros w
  | .fcInfinity | .fcNegInfinity | .fcNan | .fcNegNan => .zeros w
  | .fcRadix | .fcMantissaDigits | .fcExpBias | .fcMinExp | .fcMaxExp => .zeros w

/-- What the assembler puts on port `b` (R52). -/
def Instr.portB (w : Nat) : Instr → Pattern
  | .add _ b | .sub _ b | .addu _ b | .subu _ b | .mul _ b => b
  | .div _ b | .rem _ b | .dive _ b | .reme _ b => b
  | .neg _ | .abs _ => .zeros w
  | .fcZero | .fcNegZero | .fcOne | .fcNegOne | .fcMinPositive | .fcMaxNegative | .fcMax | .fcMin => .zeros w
  | .fcMinPositiveSubnormal | .fcMaxNegativeSubnormal | .fcMaxSubnormal | .fcMinSubnormal => .zeros w
  | .fcInfinity | .fcNegInfinity | .fcNan | .fcNegNan => .zeros w
  | .fcRadix | .fcMantissaDigits | .fcExpBias | .fcMinExp | .fcMaxExp => .zeros w

/-- The command of an instruction on an instance of width `w`. -/
def encode (w : Nat) (i : Instr) : Command := { op := i.opCode, a := i.portA w, b := i.portB w }

/-- The command word of a command (R40). -/
def Command.word (w : Nat) (c : Command) : Nat := c.op.toNat * 2 ^ (2 * w) + c.a.uval * 2 ^ w + c.b.uval

/-- The command word of an instruction. -/
def encodeWord (w : Nat) (i : Instr) : Nat := (encode w i).word w

/-- Whether an op code is one of the 32 defined ones (R45). -/
def OpCode.isDefined (op : OpCode) : Bool := (decodeOp op (.zeros 0) (.zeros 0)).isSome

/-- The structure of an op code (R41): the unit group `op[5]`, true for the layout builder. -/
def OpCode.layoutGroup (op : OpCode) : Bool := op.getLsbD 5

/-- Within the layout group `op[4]`: true for a scalar constant (R41). -/
def OpCode.scalarGroup (op : OpCode) : Bool := op.getLsbD 4

/-- The class of a constant pattern, `op[3:1]` (R43). -/
def OpCode.patternClass (op : OpCode) : BitVec 3 := op.extractLsb' 1 3

/-- The sign bit a constant pattern will carry, `op[0]` (R43). -/
def OpCode.patternSign (op : OpCode) : Bool := op.getLsbD 0

/-- The mnemonic of an instruction (R42 to R44). -/
def Instr.mnemonic : Instr → String
  | .add _ _ => "ADD"
  | .sub _ _ => "SUB"
  | .addu _ _ => "ADDU"
  | .subu _ _ => "SUBU"
  | .neg _ => "NEG"
  | .abs _ => "ABS"
  | .mul _ _ => "MUL"
  | .div _ _ => "DIV"
  | .rem _ _ => "REM"
  | .dive _ _ => "DIVE"
  | .reme _ _ => "REME"
  | .fcZero => "FC_ZERO"
  | .fcNegZero => "FC_NEG_ZERO"
  | .fcOne => "FC_ONE"
  | .fcNegOne => "FC_NEG_ONE"
  | .fcMinPositive => "FC_MIN_POSITIVE"
  | .fcMaxNegative => "FC_MAX_NEGATIVE"
  | .fcMax => "FC_MAX"
  | .fcMin => "FC_MIN"
  | .fcMinPositiveSubnormal => "FC_MIN_POSITIVE_SUBNORMAL"
  | .fcMaxNegativeSubnormal => "FC_MAX_NEGATIVE_SUBNORMAL"
  | .fcMaxSubnormal => "FC_MAX_SUBNORMAL"
  | .fcMinSubnormal => "FC_MIN_SUBNORMAL"
  | .fcInfinity => "FC_INFINITY"
  | .fcNegInfinity => "FC_NEG_INFINITY"
  | .fcNan => "FC_NAN"
  | .fcNegNan => "FC_NEG_NAN"
  | .fcRadix => "FC_RADIX"
  | .fcMantissaDigits => "FC_MANTISSA_DIGITS"
  | .fcExpBias => "FC_EXP_BIAS"
  | .fcMinExp => "FC_MIN_EXP"
  | .fcMaxExp => "FC_MAX_EXP"

/-- The document's name of an instruction, which R53 makes a second name of its mnemonic. -/
def Instr.documentName : Instr → String
  | .add _ _ => "checked_add"
  | .sub _ _ => "checked_sub"
  | .addu _ _ => "checked_add_unsigned"
  | .subu _ _ => "checked_sub_unsigned"
  | .neg _ => "checked_neg"
  | .abs _ => "checked_abs"
  | .mul _ _ => "checked_mul"
  | .div _ _ => "checked_div"
  | .rem _ _ => "checked_rem"
  | .dive _ _ => "checked_div_euclid"
  | .reme _ _ => "checked_rem_euclid"
  | .fcZero => "ZERO"
  | .fcNegZero => "NEG_ZERO"
  | .fcOne => "ONE"
  | .fcNegOne => "NEG_ONE"
  | .fcMinPositive => "MIN_POSITIVE"
  | .fcMaxNegative => "MAX_NEGATIVE"
  | .fcMax => "MAX"
  | .fcMin => "MIN"
  | .fcMinPositiveSubnormal => "MIN_POSITIVE_SUBNORMAL"
  | .fcMaxNegativeSubnormal => "MAX_NEGATIVE_SUBNORMAL"
  | .fcMaxSubnormal => "MAX_SUBNORMAL"
  | .fcMinSubnormal => "MIN_SUBNORMAL"
  | .fcInfinity => "INFINITY"
  | .fcNegInfinity => "NEG_INFINITY"
  | .fcNan => "NAN"
  | .fcNegNan => "NEG_NAN"
  | .fcRadix => "RADIX"
  | .fcMantissaDigits => "MANTISSA_DIGITS"
  | .fcExpBias => "EXP_BIAS"
  | .fcMinExp => "MIN_EXP"
  | .fcMaxExp => "MAX_EXP"

/-- The instruction the decoder reads from an opcode-table row whose bits are `w` (DESIGN CHOICE,
notes/assumptions/8.md). The table numbers the bits of the `op` field alone (R45), so the row is laid out as the command
word `{w, 0, 0}` of the reset instance and given to the decoder; a number of more than 6 bits is no op code. -/
def decodeTableWord (nbits w : Nat) : Option Instr :=
  if w < 2 ^ nbits then
    match decodeWord Config.standard.W (w * 2 ^ (2 * Config.standard.W)) with
    | .instr i => some i
    | .rejected _ => none
  else none

end Sys2Proof
end

