-- ==== Sys2Proof/Machine/Operands.lean ====
section
/-! DEFINITION. Machine/Operands.lean: how a port value is read and how a number becomes a port value
(spec/00_scope.md R7 to R10): the signed reading, the pattern of an integer, the extreme values, digits, and the two
width changes of R10. -/
namespace Sys2Proof.Machine

/-- The top bit `p[W−1]` (R14). -/
def signBit (p : Pattern) : Bool := p.bits.getLsbD (p.width - 1)

/-- `sval(p) = uval(p) − 2^W · p[W−1]` (R9). -/
def sval (p : Pattern) : Int := (p.uval : Int) - 2 ^ p.width * ((signBit p).toNat : Int)

/-- `pat(v)`, the pattern of `w` bits with `uval(pat(v)) = v mod 2^w` (R9). -/
def pat (w : Nat) (v : Int) : Pattern := ⟨w, BitVec.ofInt w v⟩

/-- `SMIN = −2^(W−1)` (R7). -/
def smin (c : Config) : Int := -(2 ^ (c.W - 1))

/-- `SMAX = 2^(W−1) − 1` (R7). -/
def smax (c : Config) : Int := 2 ^ (c.W - 1) - 1

/-- `ALL_ONES`, the pattern of `2^W − 1` (R7). -/
def allOnes (c : Config) : Pattern := ⟨c.W, BitVec.allOnes c.W⟩

/-- `representable(v)`: `SMIN ≤ v ≤ SMAX` (R9). -/
abbrev Representable (c : Config) (v : Int) : Prop := smin c ≤ v ∧ v ≤ smax c

/-- `BIAS = 2^(E−1) − 1` (R7). -/
def bias (c : Config) : Nat := 2 ^ (c.E - 1) - 1

/-- `EXP_ONES = 2^E − 1` (R7). -/
def expOnes (c : Config) : Nat := 2 ^ c.E - 1

/-- `MANT_ONES = 2^MB − 1` (R7). -/
def mantOnes (c : Config) : Nat := 2 ^ c.MB - 1

/-- Digit `i` of a pattern, bits `(i+1)·DIGIT_BITS − 1` down to `i·DIGIT_BITS` (R8, R31). -/
def digit (c : Config) (p : Pattern) (i : Nat) : BitVec c.DIGIT_BITS := p.bits.extractLsb' (i * c.DIGIT_BITS) c.DIGIT_BITS

/-- The `N` digits of a pattern, least significant first (R13). -/
def digits (c : Config) (p : Pattern) : List (BitVec c.DIGIT_BITS) := (List.range c.N).map (digit c p)

/-- `Σ digit[i] · BASE^i`, the numeric value of a list of digits of `d` bits, least significant first (R13). -/
def digitsValue (d : Nat) : List (BitVec d) → Nat
  | [] => 0
  | x :: xs => x.toNat + 2 ^ d * digitsValue d xs

/-- `sext_n(v)`: the `n`-bit pattern with the signed value of the narrower `v` (R10). -/
def sext (n : Nat) (p : Pattern) : Pattern := ⟨n, p.bits.signExtend n⟩

/-- `zext_n(v)`: the `n`-bit pattern with the unsigned value of the narrower `v` (R10). -/
def zext (n : Nat) (p : Pattern) : Pattern := ⟨n, p.bits.setWidth n⟩

end Sys2Proof.Machine
end

