-- ==== Sys2Proof/Machine/Flags.lean ====
section
/-! DEFINITION. Machine/Flags.lean: the outcome of a transaction and the three flag wires it drives
(spec/10_state.md R22, 60_exceptions.md R120 to R124), and the two detectors that every integer operation goes
through: representability (R55) and the division guard (R74). -/
namespace Sys2Proof.Machine

/-- The outcome of a transaction (R12, R120): a result pattern, or one of the two failures, which carry no value
(R24) and record nothing (R122, R123). -/
inductive Answer where
  | value (y : Pattern)
  | overflow
  | divideByZero
deriving DecidableEq, Repr

/-- The wire `ok` of an outcome (R21, R22). -/
def Answer.ok : Answer → Bool
  | .value _ => true
  | .overflow => false
  | .divideByZero => false

/-- The wire `ovf` of an outcome (R22, R122). -/
def Answer.ovf : Answer → Bool
  | .value _ => false
  | .overflow => true
  | .divideByZero => false

/-- The wire `dbz` of an outcome (R22, R123). -/
def Answer.dbz : Answer → Bool
  | .value _ => false
  | .overflow => false
  | .divideByZero => true

/-- `cause = {dbz, ovf}`, the two cause wires read as one number (R124). -/
def causeOf (ovf dbz : Bool) : Nat := 2 * dbz.toNat + ovf.toNat

/-- The overflow detector of units 1 and 3: the exact result if it is representable, otherwise Overflow (R55, R70). -/
def checked (c : Config) (r : Int) : Answer := if Representable c r then .value (pat c.W r) else .overflow

/-- The detector of unit 2: Overflow exactly on the minimum representable value (R65). -/
def unlessMinimum (c : Config) (a : Pattern) (r : Answer) : Answer := if sval a = smin c then .overflow else r

/-- The guard of unit 4, tested before any quotient or remainder is formed (R74): a zero divisor, then the minimum
value by −1. -/
def divisionGuard (c : Config) (a b : Pattern) (r : Answer) : Answer :=
  if sval b = 0 then .divideByZero
  else if sval a = smin c ∧ sval b = -1 then .overflow
  else r

end Sys2Proof.Machine
end

