-- ==== Sys2Proof/Machine/State.lean ====
section
/-! DEFINITION. Machine/State.lean: the state of the machine, the reasons it can refuse, and the state after reset.
The block stores nothing (spec/10_state.md R16 to R19, R27): what stands here are its static parameters, its ports,
the host's list of commands, and the model's own counter of free values. -/
namespace Sys2Proof.Machine

/-- No step of this machine faults. A failure of an operation is a value of the flag wires (spec/60_exceptions.md
R120, R128) and so a next state; there is no trap, no access fault and no illegal-operation exception (R121).
The type is empty because the spec names no event that stops the block. -/
inductive Fault where
deriving DecidableEq, Repr

/-- What the model gives no meaning to. All are safe: nothing is claimed of what the wires do then. -/
inductive Refusal where
  /-- An instruction that has no meaning in the model yet; no arm of `exec` says so. Safe. -/
  | notModelled (mnemonic : String)
  /-- Raised by `step`: a reserved op code, which "has no meaning" (R50, 93_implementation_defined.md I5;
  notes/assumptions/13.md). Safe. -/
  | reservedOpCode (op : OpCode)
  /-- Raised by `step` when the host has no command left to present (R142, I9: the model accepts complete commands
  only; notes/assumptions/9.md). Safe. -/
  | noCommand
  /-- Raised by `step` and by every meaning with an operand: a port was given a pattern that is not exactly `W`
  bits wide, which no wiring of the ports can do (R33; notes/assumptions/7.md). Safe. -/
  | portWidth
  /-- Raised by every meaning: the parameters are outside the legal ranges for its unit, so this is "not an instance
  of this hardware" (I11, R143; notes/assumptions/6.md). Safe. -/
  | illegalParameters
deriving DecidableEq, Repr

/-- The state: static parameters, input ports, output ports, the host's commands, the free-value counter. -/
structure State where
  /-- the static parameters (R5, R18); no step writes them -/
  cfg     : Config
  /-- the host's commands not yet presented, next one first (R141, R142; DESIGN CHOICE, notes/assumptions/3.md) -/
  pending : List Command
  /-- input port `op` (R20) -/
  op      : OpCode
  /-- input port `a` (R20) -/
  a       : Pattern
  /-- input port `b` (R20) -/
  b       : Pattern
  /-- output port `y`, meaningful only when `ok` is set (R21, R24) -/
  y       : Pattern
  /-- output wire `ok`: the operation has a result (R21) -/
  ok      : Bool
  /-- output wire `ovf`: the failure is an overflow (R21) -/
  ovf     : Bool
  /-- output wire `dbz`: the failure is a zero divisor (R21) -/
  dbz     : Bool
  /-- the model's own: how many free values have been drawn for `y` (notes/assumptions/5.md) -/
  draws   : Nat
deriving DecidableEq, Repr

/-- An instance as it stands before any command has been presented. The spec gives no value to ports that have not
been driven (R27, R135); the ports hold zeros here, with the outputs that belong to those inputs, `ADD 0, 0` (DESIGN
CHOICE, unsafe for a claim about the ports of this state, notes/assumptions/4.md). -/
def State.powerUp (c : Config) : State :=
  { cfg := c, pending := [], op := 0x00#6, a := .zeros c.W, b := .zeros c.W,
    y := .zeros c.W, ok := true, ovf := false, dbz := false, draws := 0 }

/-- The state after reset: the standard instance (notes/assumptions/2.md), no command presented. -/
def State.reset : State := State.powerUp Config.standard

end Sys2Proof.Machine
end

