-- ==== Sys2Proof/Machine/Ops.lean ====
section
/-! DEFINITION. Machine/Ops.lean: the named operations on the state: driving the output ports with an outcome (the
whole of what a result or a failure does, spec/00_scope.md R10), reading them back, the host's side of the ports, and
the shape of a transaction of each kind. There is no register file, no memory and no trap to operate on. -/
namespace Sys2Proof.Machine

/-- `y <- p`: drive the result port, `ok = 1`, `ovf = 0`, `dbz = 0` (R10). -/
def State.deliver (s : State) (p : Pattern) : State := { s with y := p, ok := true, ovf := false, dbz := false }

/-- Raising a failure is the one "exception" of this hardware, and its complete effect is on the outputs of the
transaction: `ok = 0`, the cause wires, and bits of `y` that mean nothing, here a free value drawn anew for every
failure (R24, R128). No state is saved, no mode changes, control goes nowhere, and there is no return (R128, R129). -/
def State.raise (s : State) (ovf dbz : Bool) : State :=
  { s with y := ⟨s.cfg.W, Config.freeY s.draws s.cfg.W⟩, ok := false, ovf := ovf, dbz := dbz, draws := s.draws + 1 }

/-- Drive the four output ports with an outcome (R10, R21). -/
def State.drive (s : State) : Answer → State
  | .value p => s.deliver p
  | .overflow => s.raise true false
  | .divideByZero => s.raise false true

/-- The outcome that stands on the output wires; the other five patterns of the flags are none (R22). -/
def State.answer (s : State) : Option Answer :=
  match s.ok, s.ovf, s.dbz with
  | true, false, false => some (.value s.y)
  | false, true, false => some .overflow
  | false, false, true => some .divideByZero
  | _, _, _ => none

/-- The cause number on the wires (R124). -/
def State.cause (s : State) : Nat := causeOf s.ovf s.dbz

/-- The host drives the three input ports with a command and has `rest` left to present (R20, R140). -/
def State.present (s : State) (c : Command) (rest : List Command) : State :=
  { s with pending := rest, op := c.op, a := c.a, b := c.b }

/-- The host decides on one more command, after those it already has (R141). -/
def State.issue (s : State) (c : Command) : State := { s with pending := s.pending ++ [c] }

/-- A transaction of an integer unit on one operand: unit 2 (R65). -/
def transactUnary (s : State) (a : Pattern) (r : Answer) : Host.Outcome State Fault Refusal :=
  if s.cfg.IntegerLegal then
    if a.width = s.cfg.W then .next (s.drive r) else .refused .portWidth
  else .refused .illegalParameters

/-- A transaction of an integer unit on two operands: units 1, 3 and 4 (R55, R70, R74). -/
def transactBinary (s : State) (a b : Pattern) (r : Answer) : Host.Outcome State Fault Refusal :=
  if s.cfg.IntegerLegal then
    if a.width = s.cfg.W ∧ b.width = s.cfg.W then .next (s.drive r) else .refused .portWidth
  else .refused .illegalParameters

/-- A transaction of the layout builder, which takes no operand and never fails (R88, R106, R125). -/
def transactLayout (s : State) (p : Pattern) : Host.Outcome State Fault Refusal :=
  if s.cfg.LayoutLegal then .next (s.deliver p) else .refused .illegalParameters

end Sys2Proof.Machine
end

