-- ==== Sys2Proof/Machine/AddSub.lean ====
section
/-! DEFINITION. Machine/AddSub.lean: unit 1, the signed adder/subtractor with overflow detection (spec/40_addsub.md):
ADD, SUB, ADDU, SUBU. -/
namespace Sys2Proof.Machine

/-- ADD: `r = sval(a) + sval(b)` (R56). -/
def addAnswer (c : Config) (a b : Pattern) : Answer := checked c (sval a + sval b)

/-- SUB: `r = sval(a) − sval(b)` (R57). -/
def subAnswer (c : Config) (a b : Pattern) : Answer := checked c (sval a - sval b)

/-- ADDU: `r = sval(a) + uval(b)` (R59, R60). -/
def adduAnswer (c : Config) (a b : Pattern) : Answer := checked c (sval a + (b.uval : Int))

/-- SUBU: `r = sval(a) − uval(b)` (R59, R61). -/
def subuAnswer (c : Config) (a b : Pattern) : Answer := checked c (sval a - (b.uval : Int))

/-- ADD (R56). -/
def execAdd (a b : Pattern) (s : State) : Host.Outcome State Fault Refusal := transactBinary s a b (addAnswer s.cfg a b)

/-- SUB (R57). -/
def execSub (a b : Pattern) (s : State) : Host.Outcome State Fault Refusal := transactBinary s a b (subAnswer s.cfg a b)

/-- ADDU (R60). -/
def execAddu (a b : Pattern) (s : State) : Host.Outcome State Fault Refusal := transactBinary s a b (adduAnswer s.cfg a b)

/-- SUBU (R61). -/
def execSubu (a b : Pattern) (s : State) : Host.Outcome State Fault Refusal := transactBinary s a b (subuAnswer s.cfg a b)

end Sys2Proof.Machine
end

