-- ==== Sys2Proof/Machine/Divide.lean ====
section
/-! DEFINITION. Machine/Divide.lean: unit 4, the signed divider (spec/43_divide.md): the truncating pair DIV, REM and
the Euclidean pair DIVE, REME, all behind the guard of R74. -/
namespace Sys2Proof.Machine

/-- `qt(n, d)`: the exact quotient rounded toward zero (R76). -/
def truncQuotient (n d : Int) : Int := n.tdiv d

/-- `rt(n, d) = n − d · qt(n, d)` (R76). -/
def truncRemainder (n d : Int) : Int := n - d * truncQuotient n d

/-- `re(n, d)`: the one `r` with `0 ≤ r < |d|` and `n − r` divisible by `d` (R80). -/
def euclidRemainder (n d : Int) : Int := n.emod d

/-- `qe(n, d) = (n − re(n, d)) / d`, an exact division (R80). -/
def euclidQuotient (n d : Int) : Int := (n - euclidRemainder n d).tdiv d

/-- DIV (R77). -/
def divAnswer (c : Config) (a b : Pattern) : Answer :=
  divisionGuard c a b (.value (pat c.W (truncQuotient (sval a) (sval b))))

/-- REM, which fails at `(SMIN, −1)` although the remainder exists (R78, R79). -/
def remAnswer (c : Config) (a b : Pattern) : Answer :=
  divisionGuard c a b (.value (pat c.W (truncRemainder (sval a) (sval b))))

/-- DIVE (R81). -/
def diveAnswer (c : Config) (a b : Pattern) : Answer :=
  divisionGuard c a b (.value (pat c.W (euclidQuotient (sval a) (sval b))))

/-- REME, which fails at `(SMIN, −1)` although the remainder exists (R82, R79). -/
def remeAnswer (c : Config) (a b : Pattern) : Answer :=
  divisionGuard c a b (.value (pat c.W (euclidRemainder (sval a) (sval b))))

/-- DIV (R77). -/
def execDiv (a b : Pattern) (s : State) : Host.Outcome State Fault Refusal := transactBinary s a b (divAnswer s.cfg a b)

/-- REM (R78). -/
def execRem (a b : Pattern) (s : State) : Host.Outcome State Fault Refusal := transactBinary s a b (remAnswer s.cfg a b)

/-- DIVE (R81). -/
def execDive (a b : Pattern) (s : State) : Host.Outcome State Fault Refusal := transactBinary s a b (diveAnswer s.cfg a b)

/-- REME (R82). -/
def execReme (a b : Pattern) (s : State) : Host.Outcome State Fault Refusal := transactBinary s a b (remeAnswer s.cfg a b)

end Sys2Proof.Machine
end

