-- ==== Sys2Proof/Machine/FloatLayout.lean ====
section
/-! DEFINITION. Machine/FloatLayout.lean: unit 5, the IEEE-754 bit-layout builder (spec/44_float_layout.md): sixteen
constant patterns and five scalar constants, each a closed form in the static parameters (R85). No operand, no
failure (R88, R106, R125). -/
namespace Sys2Proof.Machine

/-- `fpack(s, e, m) = {s, e, m}`, whose unsigned value is `s·2^(W−1) + e·2^MB + m` (R86): sign in bit `W−1`, exponent
field in bits `W−2 : MB`, mantissa field in bits `MB−1 : 0`. The order of the fields is general knowledge in the spec
(K1, notes/assumptions/10.md). -/
def fpack (c : Config) (s : Bool) (e m : Nat) : Pattern := upat c.W (s.toNat * 2 ^ (c.W - 1) + e * 2 ^ c.MB + m)

/-- The pattern of `0x20` (R89). -/
def fcZeroPattern (c : Config) : Pattern := fpack c false 0 0

/-- The pattern of `0x21` (R90). -/
def fcNegZeroPattern (c : Config) : Pattern := fpack c true 0 0

/-- The pattern of `0x22` (R91). -/
def fcOnePattern (c : Config) : Pattern := fpack c false (bias c) 0

/-- The pattern of `0x23` (R92). -/
def fcNegOnePattern (c : Config) : Pattern := fpack c true (bias c) 0

/-- The pattern of `0x24` (R93). -/
def fcMinPositivePattern (c : Config) : Pattern := fpack c false 1 0

/-- The pattern of `0x25` (R94). -/
def fcMaxNegativePattern (c : Config) : Pattern := fpack c true 1 0

/-- The pattern of `0x26` (R95). -/
def fcMaxPattern (c : Config) : Pattern := fpack c false (expOnes c - 1) (mantOnes c)

/-- The pattern of `0x27` (R96). -/
def fcMinPattern (c : Config) : Pattern := fpack c true (expOnes c - 1) (mantOnes c)

/-- The pattern of `0x28` (R97). -/
def fcMinPositiveSubnormalPattern (c : Config) : Pattern := fpack c false 0 1

/-- The pattern of `0x29` (R98). -/
def fcMaxNegativeSubnormalPattern (c : Config) : Pattern := fpack c true 0 1

/-- The pattern of `0x2A` (R99). -/
def fcMaxSubnormalPattern (c : Config) : Pattern := fpack c false 0 (mantOnes c)

/-- The pattern of `0x2B` (R100). -/
def fcMinSubnormalPattern (c : Config) : Pattern := fpack c true 0 (mantOnes c)

/-- The pattern of `0x2C` (R101). -/
def fcInfinityPattern (c : Config) : Pattern := fpack c false (expOnes c) 0

/-- The pattern of `0x2D` (R102). -/
def fcNegInfinityPattern (c : Config) : Pattern := fpack c true (expOnes c) 0

/-- The pattern of `0x2E` (R103). -/
def fcNanPattern (c : Config) : Pattern := fpack c false (expOnes c) c.NAN_PAYLOAD

/-- The pattern of `0x2F` (R104). -/
def fcNegNanPattern (c : Config) : Pattern := fpack c true (expOnes c) c.NAN_PAYLOAD

/-- The value of `0x30`, delivered as a Signed Core value (R106): `RADIX = 2` (R107). -/
def fcRadixPattern (c : Config) : Pattern := pat c.W 2

/-- The value of `0x31`, delivered as a Signed Core value (R106): `MANTISSA_DIGITS = MB + 1` (R108). -/
def fcMantissaDigitsPattern (c : Config) : Pattern := pat c.W (c.MB + 1)

/-- The value of `0x32`, delivered as a Signed Core value (R106): `EXP_BIAS = 2^(E−1) − 1` (R109). -/
def fcExpBiasPattern (c : Config) : Pattern := pat c.W (bias c)

/-- The value of `0x33`, delivered as a Signed Core value (R106): `MIN_EXP = 2 − BIAS`, which the spec writes from general knowledge (K3, notes/assumptions/10.md) (R110). -/
def fcMinExpPattern (c : Config) : Pattern := pat c.W (2 - (bias c : Int))

/-- The value of `0x34`, delivered as a Signed Core value (R106): `MAX_EXP = BIAS + 1`, which the spec writes from general knowledge (K3, notes/assumptions/10.md) (R111). -/
def fcMaxExpPattern (c : Config) : Pattern := pat c.W ((bias c : Int) + 1)

/-- `0x20` (R89). -/
def execFcZero (s : State) : Host.Outcome State Fault Refusal := transactLayout s (fcZeroPattern s.cfg)

/-- `0x21` (R90). -/
def execFcNegZero (s : State) : Host.Outcome State Fault Refusal := transactLayout s (fcNegZeroPattern s.cfg)

/-- `0x22` (R91). -/
def execFcOne (s : State) : Host.Outcome State Fault Refusal := transactLayout s (fcOnePattern s.cfg)

/-- `0x23` (R92). -/
def execFcNegOne (s : State) : Host.Outcome State Fault Refusal := transactLayout s (fcNegOnePattern s.cfg)

/-- `0x24` (R93). -/
def execFcMinPositive (s : State) : Host.Outcome State Fault Refusal := transactLayout s (fcMinPositivePattern s.cfg)

/-- `0x25` (R94). -/
def execFcMaxNegative (s : State) : Host.Outcome State Fault Refusal := transactLayout s (fcMaxNegativePattern s.cfg)

/-- `0x26` (R95). -/
def execFcMax (s : State) : Host.Outcome State Fault Refusal := transactLayout s (fcMaxPattern s.cfg)

/-- `0x27` (R96). -/
def execFcMin (s : State) : Host.Outcome State Fault Refusal := transactLayout s (fcMinPattern s.cfg)

/-- `0x28` (R97). -/
def execFcMinPositiveSubnormal (s : State) : Host.Outcome State Fault Refusal := transactLayout s (fcMinPositiveSubnormalPattern s.cfg)

/-- `0x29` (R98). -/
def execFcMaxNegativeSubnormal (s : State) : Host.Outcome State Fault Refusal := transactLayout s (fcMaxNegativeSubnormalPattern s.cfg)

/-- `0x2A` (R99). -/
def execFcMaxSubnormal (s : State) : Host.Outcome State Fault Refusal := transactLayout s (fcMaxSubnormalPattern s.cfg)

/-- `0x2B` (R100). -/
def execFcMinSubnormal (s : State) : Host.Outcome State Fault Refusal := transactLayout s (fcMinSubnormalPattern s.cfg)

/-- `0x2C` (R101). -/
def execFcInfinity (s : State) : Host.Outcome State Fault Refusal := transactLayout s (fcInfinityPattern s.cfg)

/-- `0x2D` (R102). -/
def execFcNegInfinity (s : State) : Host.Outcome State Fault Refusal := transactLayout s (fcNegInfinityPattern s.cfg)

/-- `0x2E` (R103). -/
def execFcNan (s : State) : Host.Outcome State Fault Refusal := transactLayout s (fcNanPattern s.cfg)

/-- `0x2F` (R104). -/
def execFcNegNan (s : State) : Host.Outcome State Fault Refusal := transactLayout s (fcNegNanPattern s.cfg)

/-- `0x30` (R107). -/
def execFcRadix (s : State) : Host.Outcome State Fault Refusal := transactLayout s (fcRadixPattern s.cfg)

/-- `0x31` (R108). -/
def execFcMantissaDigits (s : State) : Host.Outcome State Fault Refusal := transactLayout s (fcMantissaDigitsPattern s.cfg)

/-- `0x32` (R109). -/
def execFcExpBias (s : State) : Host.Outcome State Fault Refusal := transactLayout s (fcExpBiasPattern s.cfg)

/-- `0x33` (R110). -/
def execFcMinExp (s : State) : Host.Outcome State Fault Refusal := transactLayout s (fcMinExpPattern s.cfg)

/-- `0x34` (R111). -/
def execFcMaxExp (s : State) : Host.Outcome State Fault Refusal := transactLayout s (fcMaxExpPattern s.cfg)

end Sys2Proof.Machine
end

