-- ==== Sys2Proof/Machine/Multiply.lean ====
section
/-! DEFINITION. Machine/Multiply.lean: unit 3, the signed multiplier with overflow guard (spec/42_multiply.md): MUL. -/
namespace Sys2Proof.Machine

/-- MUL: `r = sval(a) · sval(b)` (R71). -/
def mulAnswer (c : Config) (a b : Pattern) : Answer := checked c (sval a * sval b)

/-- MUL (R71). -/
def execMul (a b : Pattern) (s : State) : Host.Outcome State Fault Refusal := transactBinary s a b (mulAnswer s.cfg a b)

end Sys2Proof.Machine
end

