-- ==== Sys2Proof/Machine/Negate.lean ====
section
/-! DEFINITION. Machine/Negate.lean: unit 2, the two's-complement negator with overflow flag (spec/41_negate.md):
NEG, ABS. -/
namespace Sys2Proof.Machine

/-- NEG: `pat(−sval(a))` unless `a` is the minimum (R66). -/
def negAnswer (c : Config) (a : Pattern) : Answer := unlessMinimum c a (.value (pat c.W (-sval a)))

/-- ABS: `pat(−sval(a))` of a negative `a`, `a` itself otherwise, unless `a` is the minimum (R67). -/
def absAnswer (c : Config) (a : Pattern) : Answer :=
  unlessMinimum c a (if sval a < 0 then .value (pat c.W (-sval a)) else .value a)

/-- NEG (R66). -/
def execNeg (a : Pattern) (s : State) : Host.Outcome State Fault Refusal := transactUnary s a (negAnswer s.cfg a)

/-- ABS (R67). -/
def execAbs (a : Pattern) (s : State) : Host.Outcome State Fault Refusal := transactUnary s a (absAnswer s.cfg a)

end Sys2Proof.Machine
end

