-- ==== Sys2Proof/Machine/Dispatch.lean ====
section
/-! DEFINITION. Machine/Dispatch.lean: one arm per operation (spec/30_encoding.md R42 to R44). -/
namespace Sys2Proof.Machine

def exec (i : Instr) (s : State) : Host.Outcome State Fault Refusal :=
  match i with
  | .add a b => Sys2Proof.Machine.execAdd a b s
  | .sub a b => Sys2Proof.Machine.execSub a b s
  | .addu a b => Sys2Proof.Machine.execAddu a b s
  | .subu a b => Sys2Proof.Machine.execSubu a b s
  | .neg a => Sys2Proof.Machine.execNeg a s
  | .abs a => Sys2Proof.Machine.execAbs a s
  | .mul a b => Sys2Proof.Machine.execMul a b s
  | .div a b => Sys2Proof.Machine.execDiv a b s
  | .rem a b => Sys2Proof.Machine.execRem a b s
  | .dive a b => Sys2Proof.Machine.execDive a b s
  | .reme a b => Sys2Proof.Machine.execReme a b s
  | .fcZero => Sys2Proof.Machine.execFcZero s
  | .fcNegZero => Sys2Proof.Machine.execFcNegZero s
  | .fcOne => Sys2Proof.Machine.execFcOne s
  | .fcNegOne => Sys2Proof.Machine.execFcNegOne s
  | .fcMinPositive => Sys2Proof.Machine.execFcMinPositive s
  | .fcMaxNegative => Sys2Proof.Machine.execFcMaxNegative s
  | .fcMax => Sys2Proof.Machine.execFcMax s
  | .fcMin => Sys2Proof.Machine.execFcMin s
  | .fcMinPositiveSubnormal => Sys2Proof.Machine.execFcMinPositiveSubnormal s
  | .fcMaxNegativeSubnormal => Sys2Proof.Machine.execFcMaxNegativeSubnormal s
  | .fcMaxSubnormal => Sys2Proof.Machine.execFcMaxSubnormal s
  | .fcMinSubnormal => Sys2Proof.Machine.execFcMinSubnormal s
  | .fcInfinity => Sys2Proof.Machine.execFcInfinity s
  | .fcNegInfinity => Sys2Proof.Machine.execFcNegInfinity s
  | .fcNan => Sys2Proof.Machine.execFcNan s
  | .fcNegNan => Sys2Proof.Machine.execFcNegNan s
  | .fcRadix => Sys2Proof.Machine.execFcRadix s
  | .fcMantissaDigits => Sys2Proof.Machine.execFcMantissaDigits s
  | .fcExpBias => Sys2Proof.Machine.execFcExpBias s
  | .fcMinExp => Sys2Proof.Machine.execFcMinExp s
  | .fcMaxExp => Sys2Proof.Machine.execFcMaxExp s

end Sys2Proof.Machine
end

