-- ==== Sys2Proof/Machine/Step.lean ====
section
/-! DEFINITION. Machine/Step.lean: one transaction: the host presents its next command on the input ports, the op code
selects the operation, the block drives the output ports (spec/10_state.md R20, R21, 30_encoding.md R47). -/
namespace Sys2Proof.Machine

/-- Why the machine gives a rejected command no meaning. -/
def refusalOf : DecodeError → Refusal
  | .reservedOpCode op => .reservedOpCode op
  | .portWidth => .portWidth
  | .wordTooLong => .portWidth

/-- The transaction of one command: its ports are driven and the operation it selects is run (R47, R140). -/
def transact (s : State) (c : Command) (rest : List Command) : Host.Outcome State Fault Refusal :=
  match decode s.cfg.W c with
  | .instr i => exec i (s.present c rest)
  | .rejected e => .refused (refusalOf e)

/-- One step: the transaction of the next command the host presents (R141, R142). -/
def step (s : State) : Host.Outcome State Fault Refusal :=
  match s.pending with
  | [] => .refused .noCommand
  | c :: rest => transact s c rest

/-- `s` with the instruction of an opcode-table row, bits `w`, operand ports at zero, as the command the host presents
next, before any it already had (notes/assumptions/8.md). A number that is no op code leaves nothing to present. -/
def State.withFetchWord (s : State) (nbits w : Nat) : State :=
  if w < 2 ^ nbits then
    match Command.ofWord s.cfg.W (w * 2 ^ (2 * s.cfg.W)) with
    | some c => { s with pending := c :: s.pending }
    | none => { s with pending := [] }
  else { s with pending := [] }

end Sys2Proof.Machine
end

