-- ==== Sys2Proof/Machine/Datapath.lean ====
section
/-! DEFINITION. Machine/Datapath.lean: the second description of the same block that the spec gives, on bits: the
detectors of spec/40_addsub.md R58 and R62, 41_negate.md R66, 42_multiply.md R72, the guard of 43_divide.md R74 on
patterns, and the shift and mask forms of 44_float_layout.md R115. The machine does not run it; it is here to be compared
with the machine. -/
namespace Sys2Proof.Machine

/-- `s = (uval(a) + uval(b)) mod 2^W` (R58). -/
def wrappedSum (w : Nat) (a b : Pattern) : Pattern := upat w ((a.uval + b.uval) % 2 ^ w)

/-- `d = (uval(a) − uval(b)) mod 2^W` (R58). -/
def wrappedDifference (w : Nat) (a b : Pattern) : Pattern := upat w ((a.uval + (2 ^ w - b.uval)) % 2 ^ w)

/-- `c`, the carry out (R62). -/
def carryOut (w : Nat) (a b : Pattern) : Bool := decide (2 ^ w ≤ a.uval + b.uval)

/-- `w`, the borrow out (R62). -/
def borrowOut (a b : Pattern) : Bool := decide (a.uval < b.uval)

/-- `ovf_ADD` (R58): the operands agree in sign and the sum does not. -/
def addOverflowBit (w : Nat) (a b : Pattern) : Bool :=
  (signBit a == signBit b) && (signBit (wrappedSum w a b) != signBit a)

/-- `ovf_SUB` (R58): the operands differ in sign and the difference does not keep the sign of `a`. -/
def subOverflowBit (w : Nat) (a b : Pattern) : Bool :=
  (signBit a != signBit b) && (signBit (wrappedDifference w a b) != signBit a)

/-- `ovf_ADDU` from the carry (R62). -/
def adduOverflowBit (w : Nat) (a b : Pattern) : Bool :=
  (!signBit a && (carryOut w a b || signBit (wrappedSum w a b)))
    || (signBit a && carryOut w a b && signBit (wrappedSum w a b))

/-- `ovf_SUBU` from the borrow (R62). -/
def subuOverflowBit (w : Nat) (a b : Pattern) : Bool :=
  (signBit a && (borrowOut a b || !signBit (wrappedDifference w a b)))
    || (!signBit a && borrowOut a b && !signBit (wrappedDifference w a b))

/-- `(~a + 1) mod 2^W`, "negation = complement + 1" (R66). -/
def complementPlusOne (a : Pattern) : Pattern := ⟨a.width, ~~~a.bits + 1#a.width⟩

/-- How a builder recognises the failure of unit 2: the sign bit is set before and after (R66). -/
def negOverflowBit (a : Pattern) : Bool := signBit a && signBit (complementPlusOne a)

/-- `P`, the `2W`-bit pattern of the exact product (R72). -/
def doubleProduct (w : Nat) (a b : Pattern) : BitVec (2 * w) := a.bits.signExtend (2 * w) * b.bits.signExtend (2 * w)

/-- The guard of unit 3: the `W + 1` bits `P[2W−1 : W−1]` are not all equal (R72). -/
def mulOverflowBit (w : Nat) (a b : Pattern) : Bool :=
  let top := (doubleProduct w a b).extractLsb' (w - 1) (w + 1)
  top != 0#(w + 1) && top != BitVec.allOnes (w + 1)

/-- The truncating quotient from magnitudes and signs: rounded toward zero, negative when the signs differ (R76;
DEDUCED, notes/assumptions/14.md). -/
def signedQuotient (n d : Int) : Int :=
  if decide (n < 0) != decide (d < 0) then -((n.natAbs / d.natAbs : Nat) : Int) else ((n.natAbs / d.natAbs : Nat) : Int)

/-- The truncating remainder from magnitudes: zero or with the sign of the dividend (R76;
DEDUCED, notes/assumptions/14.md). -/
def signedRemainder (n d : Int) : Int :=
  if n < 0 then -((n.natAbs % d.natAbs : Nat) : Int) else ((n.natAbs % d.natAbs : Nat) : Int)

/-- The Euclidean quotient as a step from the truncating pair (R80). -/
def steppedQuotient (n d : Int) : Int :=
  if 0 ≤ signedRemainder n d then signedQuotient n d
  else if 0 < d then signedQuotient n d - 1 else signedQuotient n d + 1

/-- The Euclidean remainder as a step from the truncating pair (R80). -/
def steppedRemainder (n d : Int) : Int :=
  if 0 ≤ signedRemainder n d then signedRemainder n d
  else if 0 < d then signedRemainder n d + d else signedRemainder n d - d

/-- The guard of unit 4 on patterns: `b` all zeros, then `a` the sign bit alone and `b` all ones (R74). -/
def patternGuard (w : Nat) (a b : Pattern) (r : Answer) : Answer :=
  if b.uval = 0 then .divideByZero
  else if a.uval = 2 ^ (w - 1) ∧ b.uval = 2 ^ w - 1 then .overflow
  else r

/-- `ONES = ALL_ONES` (R115). -/
def onesBits (c : Config) : BitVec c.W := BitVec.allOnes c.W

/-- `SM = ONES >> 1`, the maximum signed pattern (R115). -/
def smBits (c : Config) : BitVec c.W := onesBits c >>> 1

/-- `U = 1` (R115). -/
def unitBits (c : Config) : BitVec c.W := 1#c.W

/-- "any negative constant: the positive one `| (ONES << (W−1))`" (R115, R88). -/
def withSign (c : Config) (p : BitVec c.W) : BitVec c.W := p ||| (onesBits c <<< (c.W - 1))

/-- ONE (R115). -/
def oneBits (c : Config) : BitVec c.W := (smBits c >>> (c.MB + 1)) <<< c.MB
/-- MIN_POSITIVE (R115). -/
def minPositiveBits (c : Config) : BitVec c.W := unitBits c <<< c.MB
/-- MAX (R115). -/
def maxBits (c : Config) : BitVec c.W := smBits c ^^^ (unitBits c <<< c.MB)
/-- MIN (R115). -/
def minBits (c : Config) : BitVec c.W := onesBits c ^^^ (unitBits c <<< c.MB)
/-- MAX_SUBNORMAL (R115). -/
def maxSubnormalBits (c : Config) : BitVec c.W := onesBits c >>> (c.W - c.MB)
/-- INFINITY (R115). -/
def infinityBits (c : Config) : BitVec c.W := (onesBits c <<< (c.MB + 1)) >>> 1
/-- NEG_INFINITY (R115). -/
def negInfinityBits (c : Config) : BitVec c.W := onesBits c <<< c.MB
/-- NAN: the mantissa field of INFINITY filled with the payload. R115 gives it for the default payload
(DEDUCED, notes/assumptions/14.md). -/
def nanBits (c : Config) : BitVec c.W := infinityBits c ||| BitVec.ofNat c.W c.NAN_PAYLOAD
/-- EXP_BIAS (R109, R115). -/
def expBiasBits (c : Config) : BitVec c.W := smBits c >>> (c.MB + 1)
/-- MAX_EXP, `2^(E−1)` (R111; the form is DEDUCED, notes/assumptions/14.md). -/
def maxExpBits (c : Config) : BitVec c.W := unitBits c <<< (c.E - 1)

/-- The outcome of an operation, on bits. The sums and the difference of RADIX, MANTISSA_DIGITS and MIN_EXP are DEDUCED from the
values of R107, R108 and R110 (notes/assumptions/14.md). -/
def datapath (c : Config) (i : Instr) : Answer :=
  match i with
  | .add a b => if addOverflowBit c.W a b then .overflow else .value (wrappedSum c.W a b)
  | .sub a b => if subOverflowBit c.W a b then .overflow else .value (wrappedDifference c.W a b)
  | .addu a b => if adduOverflowBit c.W a b then .overflow else .value (wrappedSum c.W a b)
  | .subu a b => if subuOverflowBit c.W a b then .overflow else .value (wrappedDifference c.W a b)
  | .neg a => if negOverflowBit a then .overflow else .value (complementPlusOne a)
  | .abs a =>
      if signBit a then (if negOverflowBit a then .overflow else .value (complementPlusOne a)) else .value a
  | .mul a b =>
      if mulOverflowBit c.W a b then .overflow else .value ⟨c.W, (doubleProduct c.W a b).extractLsb' 0 c.W⟩
  | .div a b => patternGuard c.W a b (.value (pat c.W (signedQuotient (sval a) (sval b))))
  | .rem a b => patternGuard c.W a b (.value (pat c.W (signedRemainder (sval a) (sval b))))
  | .dive a b => patternGuard c.W a b (.value (pat c.W (steppedQuotient (sval a) (sval b))))
  | .reme a b => patternGuard c.W a b (.value (pat c.W (steppedRemainder (sval a) (sval b))))
  | .fcZero => .value ⟨c.W, 0#c.W⟩
  | .fcNegZero => .value ⟨c.W, onesBits c <<< (c.W - 1)⟩
  | .fcOne => .value ⟨c.W, oneBits c⟩
  | .fcNegOne => .value ⟨c.W, withSign c (oneBits c)⟩
  | .fcMinPositive => .value ⟨c.W, minPositiveBits c⟩
  | .fcMaxNegative => .value ⟨c.W, withSign c (minPositiveBits c)⟩
  | .fcMax => .value ⟨c.W, maxBits c⟩
  | .fcMin => .value ⟨c.W, minBits c⟩
  | .fcMinPositiveSubnormal => .value ⟨c.W, unitBits c⟩
  | .fcMaxNegativeSubnormal => .value ⟨c.W, withSign c (unitBits c)⟩
  | .fcMaxSubnormal => .value ⟨c.W, maxSubnormalBits c⟩
  | .fcMinSubnormal => .value ⟨c.W, withSign c (maxSubnormalBits c)⟩
  | .fcInfinity => .value ⟨c.W, infinityBits c⟩
  | .fcNegInfinity => .value ⟨c.W, negInfinityBits c⟩
  | .fcNan => .value ⟨c.W, nanBits c⟩
  | .fcNegNan => .value ⟨c.W, withSign c (nanBits c)⟩
  | .fcRadix => .value ⟨c.W, unitBits c + unitBits c⟩
  | .fcMantissaDigits => .value ⟨c.W, BitVec.ofNat c.W c.MB + unitBits c⟩
  | .fcExpBias => .value ⟨c.W, expBiasBits c⟩
  | .fcMinExp => .value ⟨c.W, unitBits c + unitBits c - expBiasBits c⟩
  | .fcMaxExp => .value ⟨c.W, maxExpBits c⟩

end Sys2Proof.Machine
end

