-- ==== Sys2Proof/Machine/FloatReading.lean ====
section
/-! DEFINITION. Machine/FloatReading.lean: how a Float value is read (spec/44_float_layout.md R86, R87, R113): its three
fields, its class, and its numeric value. No operation of the block reads a Float value (R85); these definitions are what
the rules on the constants are stated in. -/
namespace Sys2Proof.Machine

/-- The sign field, bit `W−1` (R86). -/
def signField (c : Config) (p : Pattern) : Bool := p.bits.getLsbD (c.W - 1)

/-- The exponent field, bits `W−2 : MB` (R86). -/
def expField (c : Config) (p : Pattern) : Nat := (p.bits.extractLsb' c.MB c.E).toNat

/-- The mantissa field, bits `MB−1 : 0` (R86). -/
def mantField (c : Config) (p : Pattern) : Nat := (p.bits.extractLsb' 0 c.MB).toNat

/-- The encoding classes (R87). -/
inductive FloatClass where
  | zero | subnormal | normal | infinity | nan
deriving DecidableEq, Repr

/-- The class of a pattern, by its exponent and mantissa fields (R87). -/
def floatClass (c : Config) (p : Pattern) : FloatClass :=
  if expField c p = expOnes c then (if mantField c p = 0 then .infinity else .nan)
  else if expField c p = 0 then (if mantField c p = 0 then .zero else .subnormal)
  else .normal

/-- What a pattern stands for: a number, one of the two infinities, or no number (R113). -/
inductive FloatReading where
  | negInfinity
  | finite (q : ℚ)
  | posInfinity
  | notANumber
deriving DecidableEq

/-- `(−1)^s` (R113). -/
def signFactor (s : Bool) : ℚ := if s then -1 else 1

/-- The numeric reading of a pattern (R113; the formula is general knowledge in the spec, K4, notes/assumptions/11.md). -/
def floatReading (c : Config) (p : Pattern) : FloatReading :=
  match floatClass c p with
  | .zero | .subnormal =>
      .finite (signFactor (signField c p) * (2 : ℚ) ^ (1 - (bias c : ℤ)) * ((mantField c p : ℚ) / 2 ^ c.MB))
  | .normal =>
      .finite (signFactor (signField c p) * (2 : ℚ) ^ ((expField c p : ℤ) - (bias c : ℤ))
        * (1 + (mantField c p : ℚ) / 2 ^ c.MB))
  | .infinity => if signField c p then .negInfinity else .posInfinity
  | .nan => .notANumber

/-- The order of readings: the infinities stand outside the numbers, and NAN is not compared (R114). -/
def FloatReading.lt : FloatReading → FloatReading → Prop
  | .negInfinity, .finite _ => True
  | .negInfinity, .posInfinity => True
  | .finite x, .finite y => x < y
  | .finite _, .posInfinity => True
  | _, _ => False

/-- At most: equal numbers, or less (R114). -/
def FloatReading.le : FloatReading → FloatReading → Prop
  | .finite x, .finite y => x ≤ y
  | x, y => x.lt y

end Sys2Proof.Machine
end

