-- ==== Sys2Proof/Machine/Outcome.lean ====
section
/-! DEFINITION. Machine/Outcome.lean: the block as the pure function of spec/00_scope.md R12, from parameters and an
operation with its operands to an outcome, with no state in it. -/
namespace Sys2Proof.Machine

/-- `exec` of R12: the outcome of an operation on an instance. -/
def outcome (c : Config) (i : Instr) : Answer :=
  match i with
  | .add a b => addAnswer c a b
  | .sub a b => subAnswer c a b
  | .addu a b => adduAnswer c a b
  | .subu a b => subuAnswer c a b
  | .neg a => negAnswer c a
  | .abs a => absAnswer c a
  | .mul a b => mulAnswer c a b
  | .div a b => divAnswer c a b
  | .rem a b => remAnswer c a b
  | .dive a b => diveAnswer c a b
  | .reme a b => remeAnswer c a b
  | .fcZero => .value (fcZeroPattern c)
  | .fcNegZero => .value (fcNegZeroPattern c)
  | .fcOne => .value (fcOnePattern c)
  | .fcNegOne => .value (fcNegOnePattern c)
  | .fcMinPositive => .value (fcMinPositivePattern c)
  | .fcMaxNegative => .value (fcMaxNegativePattern c)
  | .fcMax => .value (fcMaxPattern c)
  | .fcMin => .value (fcMinPattern c)
  | .fcMinPositiveSubnormal => .value (fcMinPositiveSubnormalPattern c)
  | .fcMaxNegativeSubnormal => .value (fcMaxNegativeSubnormalPattern c)
  | .fcMaxSubnormal => .value (fcMaxSubnormalPattern c)
  | .fcMinSubnormal => .value (fcMinSubnormalPattern c)
  | .fcInfinity => .value (fcInfinityPattern c)
  | .fcNegInfinity => .value (fcNegInfinityPattern c)
  | .fcNan => .value (fcNanPattern c)
  | .fcNegNan => .value (fcNegNanPattern c)
  | .fcRadix => .value (fcRadixPattern c)
  | .fcMantissaDigits => .value (fcMantissaDigitsPattern c)
  | .fcExpBias => .value (fcExpBiasPattern c)
  | .fcMinExp => .value (fcMinExpPattern c)
  | .fcMaxExp => .value (fcMaxExpPattern c)

end Sys2Proof.Machine
end

