-- ==== Sys2Proof/WellFormed.lean ====
section
/-! DEFINITION. WellFormed.lean: which instructions an instance can be given: every operand is exactly `W` bits
wide (spec/20_memory.md R33), and the parameters are legal for the unit that runs it (00_scope.md R6,
70_reset_and_hazards.md R143). -/
namespace Sys2Proof

/-- The operands an instruction names, in port order (R52). -/
def Instr.operands : Instr → List Pattern
  | .add a b | .sub a b | .addu a b | .subu a b | .mul a b => [a, b]
  | .div a b | .rem a b | .dive a b | .reme a b => [a, b]
  | .neg a | .abs a => [a]
  | .fcZero | .fcNegZero | .fcOne | .fcNegOne | .fcMinPositive | .fcMaxNegative | .fcMax | .fcMin => []
  | .fcMinPositiveSubnormal | .fcMaxNegativeSubnormal | .fcMaxSubnormal | .fcMinSubnormal => []
  | .fcInfinity | .fcNegInfinity | .fcNan | .fcNegNan => []
  | .fcRadix | .fcMantissaDigits | .fcExpBias | .fcMinExp | .fcMaxExp => []

/-- The unit group of an instruction, `op[5]` (R41): true for the layout builder, unit 5 of R1. -/
def Instr.isLayout : Instr → Bool
  | .add _ _ | .sub _ _ | .addu _ _ | .subu _ _ | .mul _ _ => false
  | .div _ _ | .rem _ _ | .dive _ _ | .reme _ _ => false
  | .neg _ | .abs _ => false
  | .fcZero | .fcNegZero | .fcOne | .fcNegOne | .fcMinPositive | .fcMaxNegative | .fcMax | .fcMin => true
  | .fcMinPositiveSubnormal | .fcMaxNegativeSubnormal | .fcMaxSubnormal | .fcMinSubnormal => true
  | .fcInfinity | .fcNegInfinity | .fcNan | .fcNegNan => true
  | .fcRadix | .fcMantissaDigits | .fcExpBias | .fcMinExp | .fcMaxExp => true

/-- Every operand is a whole `W`-bit port value (R33, R46). -/
def Instr.operandsFit (w : Nat) (i : Instr) : Bool := i.operands.all fun p => p.width == w

/-- The parameters are legal for the unit the instruction selects (R6, R143). -/
def Instr.unitLegal (c : Config) (i : Instr) : Bool :=
  if i.isLayout then decide c.LayoutLegal else decide c.IntegerLegal

/-- An instruction that an instance with parameters `c` can be given. -/
def Instr.wellFormed (c : Config) (i : Instr) : Bool := i.unitLegal c && i.operandsFit c.W

end Sys2Proof
end

