-- ==== Sys2Proof/Safety.lean ====
section
/-! DEFINITION. Safety.lean: the terms in which claims about the machine are made: what a transaction leaves alone, what it
means to deliver a value or to fail, and the invariant that ties the output ports to the input ports. -/
namespace Sys2Proof.Machine

/-- The frame of every operation: it drives the four outputs and nothing else, so the static parameters, the input ports
and the host's commands are as they were (spec/10_state.md R16, R18, R21). -/
def OnlyOutputs (s t : State) : Prop :=
  t.cfg = s.cfg ∧ t.pending = s.pending ∧ t.op = s.op ∧ t.a = s.a ∧ t.b = s.b

/-- The outputs `(ok, ovf, dbz)` of a state (R22). -/
def State.flags (s : State) : Bool × Bool × Bool := (s.ok, s.ovf, s.dbz)

/-- A result with pattern `p` is on the outputs, flags `(1, 0, 0)` (R22). -/
def Delivered (s t : State) (p : Pattern) : Prop :=
  OnlyOutputs s t ∧ t.flags = (true, false, false) ∧ t.y = p

/-- A result with signed value `v` is on the outputs, `W` bits wide, flags `(1, 0, 0)` (R9, R22). -/
def DeliveredInt (s t : State) (v : Int) : Prop :=
  OnlyOutputs s t ∧ t.flags = (true, false, false) ∧ t.y.width = s.cfg.W ∧ sval t.y = v

/-- A Float pattern with fields `(σ, e, m)` is on the outputs, `W` bits wide, flags `(1, 0, 0)` (R86, R88). -/
def DeliveredFields (s t : State) (σ : Bool) (e m : Nat) : Prop :=
  OnlyOutputs s t ∧ t.flags = (true, false, false) ∧ t.y.width = s.cfg.W ∧ signField s.cfg t.y = σ
    ∧ expField s.cfg t.y = e ∧ mantField s.cfg t.y = m

/-- Overflow is on the outputs, flags `(0, 1, 0)`; nothing is said of the bits of `y` (R24, R122). -/
def RaisedOverflow (s t : State) : Prop := OnlyOutputs s t ∧ t.flags = (false, true, false)

/-- DivideByZero is on the outputs, flags `(0, 0, 1)`; nothing is said of the bits of `y` (R24, R123). -/
def RaisedDivideByZero (s t : State) : Prop := OnlyOutputs s t ∧ t.flags = (false, false, true)

/-- The mathematical result of an operation, as an unbounded integer, where it has one (R55, R65, R70, R76, R80): none for a
zero divisor, and none for the layout builder, which computes nothing from operands. -/
def mathResult (i : Instr) : Option Int :=
  match i with
  | .add a b => some (sval a + sval b)
  | .sub a b => some (sval a - sval b)
  | .addu a b => some (sval a + (b.uval : Int))
  | .subu a b => some (sval a - (b.uval : Int))
  | .neg a => some (-sval a)
  | .abs a => some |sval a|
  | .mul a b => some (sval a * sval b)
  | .div a b => if sval b = 0 then none else some (truncQuotient (sval a) (sval b))
  | .rem a b => if sval b = 0 then none else some (truncRemainder (sval a) (sval b))
  | .dive a b => if sval b = 0 then none else some (euclidQuotient (sval a) (sval b))
  | .reme a b => if sval b = 0 then none else some (euclidRemainder (sval a) (sval b))
  | .fcZero | .fcNegZero | .fcOne | .fcNegOne | .fcMinPositive | .fcMaxNegative | .fcMax | .fcMin => none
  | .fcMinPositiveSubnormal | .fcMaxNegativeSubnormal | .fcMaxSubnormal | .fcMinSubnormal => none
  | .fcInfinity | .fcNegInfinity | .fcNan | .fcNegNan => none
  | .fcRadix | .fcMantissaDigits | .fcExpBias | .fcMinExp | .fcMaxExp => none

/-- The condition in which the table of R122 lets an operation raise Overflow; never for one it does not list. -/
def OverflowCondition (c : Config) (i : Instr) : Prop :=
  match i with
  | .add a b => ¬ Representable c (sval a + sval b)
  | .sub a b => ¬ Representable c (sval a - sval b)
  | .addu a b => smax c < sval a + (b.uval : Int)
  | .subu a b => sval a - (b.uval : Int) < smin c
  | .neg a | .abs a => sval a = smin c
  | .mul a b => ¬ Representable c (sval a * sval b)
  | .div a b | .rem a b | .dive a b | .reme a b => sval a = smin c ∧ sval b = -1
  | .fcZero | .fcNegZero | .fcOne | .fcNegOne | .fcMinPositive | .fcMaxNegative | .fcMax | .fcMin => False
  | .fcMinPositiveSubnormal | .fcMaxNegativeSubnormal | .fcMaxSubnormal | .fcMinSubnormal => False
  | .fcInfinity | .fcNegInfinity | .fcNan | .fcNegNan => False
  | .fcRadix | .fcMantissaDigits | .fcExpBias | .fcMinExp | .fcMaxExp => False

/-- The two operands of an instruction fit an instance that is legal for the integer units (R6, R33). -/
def BinaryFits (s : State) (a b : Pattern) : Prop := s.cfg.IntegerLegal ∧ a.width = s.cfg.W ∧ b.width = s.cfg.W

/-- The operand of an instruction fits an instance that is legal for the integer units (R6, R33). -/
def UnaryFits (s : State) (a : Pattern) : Prop := s.cfg.IntegerLegal ∧ a.width = s.cfg.W

/-- The same op code selects the instruction whatever `W`-bit patterns are on the ports (R20, R47). -/
def SelectedBy (c : Config) (op : OpCode) (i : Instr) : Prop :=
  ∀ a b : Pattern, a.width = c.W → b.width = c.W → decode c.W ⟨op, a, b⟩ = .instr i

/-- The invariant of an instance: legal parameters, ports of `W` bits, a command with a defined op code on the input
ports, and on the output ports the outcome of exactly that command, so one of the three flag patterns (R21, R22, R33). -/
def State.Inv (s : State) : Prop :=
  s.cfg.IntegerLegal ∧ s.a.width = s.cfg.W ∧ s.b.width = s.cfg.W ∧ s.y.width = s.cfg.W
    ∧ ∃ i, decode s.cfg.W ⟨s.op, s.a, s.b⟩ = .instr i ∧ s.answer = some (outcome s.cfg i)

/-- The outcomes of a list of commands in the order the host issues them, each on the instance alone: what a run of a
program produces (R142, 95_test_vectors.md section 6); nothing stands where the machine refuses a command. -/
def outcomes (c : Config) (cmds : List Command) : List (Option Answer) :=
  cmds.map fun cmd =>
    match decode c.W cmd with
    | .instr i => if i.wellFormed c then some (outcome c i) else none
    | .rejected _ => none

/-- What a run of `k` steps of the machine shows on its outputs, step by step; nothing once it refuses. -/
def shown (s : State) : Nat → List (Option Answer)
  | 0 => []
  | k + 1 =>
    match step s with
    | .next t => t.answer :: shown t k
    | .fault _ => []
    | .refused _ => []

end Sys2Proof.Machine
end

