-- ==== Sys2Proof/Certificates/Slice0/Obligations.lean ====
section
/-! DEFINITION. Certificates/Slice0/Obligations.lean: the statements about the machine, from the numbered rules of spec/.
Each holds for every parameter set of the instance (the parameters are a field of the state), unless it says which. In all of
them the frame `OnlyOutputs` is the whole of what may not change: static parameters, input ports, the host's commands. The
block has no other state. -/
open Sys2Proof Sys2Proof.Machine

/-! ## Encoding -/

/-- Words written out from R40 and from the command words of 95_test_vectors.md decode to what they stand for: one of each
unit, at several widths. -/
def Obligations.DecodeReadsTheWordsOfTheSpec : Prop :=
  decodeWord 8 0x007F01 = .instr (.add ⟨8, 0x7F#8⟩ ⟨8, 0x01#8⟩)
    ∧ decodeWord 8 0x047FAB = .instr (.neg ⟨8, 0x7F#8⟩)
    ∧ decodeWord 16 0x060100FF80 = .instr (.mul ⟨16, 0x0100#16⟩ ⟨16, 0xFF80#16⟩)
    ∧ decodeWord 8 0x0880FF = .instr (.div ⟨8, 0x80#8⟩ ⟨8, 0xFF#8⟩)
    ∧ decodeWord 32 0x2E0000000000000000 = .instr .fcNan
    ∧ decodeWord 8 0x070000 = .rejected (.reservedOpCode 0x07#6)

/-- Decode and encode agree on every instruction an instance can be given, as a command on the three ports and as a command
word of `2·W + 6` bits (R40, R42 to R44). -/
def Obligations.DecodeOfEncodeIsTheInstruction : Prop :=
  ∀ (c : Config) (i : Instr), i.wellFormed c = true →
    decode c.W (encode c.W i) = .instr i
      ∧ encodeWord c.W i < 2 ^ (2 * c.W + 6) ∧ decodeWord c.W (encodeWord c.W i) = .instr i

/-- The other direction: a word that decodes is the word of its instruction, but for the operand ports that the operation
ignores, which the encoder fills with zeros (R20, R40, R52). -/
def Obligations.EncodeOfDecodeKeepsEveryBitOfTheOperands : Prop :=
  ∀ (w n : Nat) (i : Instr), decodeWord w n = .instr i →
    encodeWord w i = n / 2 ^ ((2 - i.operands.length) * w) * 2 ^ ((2 - i.operands.length) * w)

/-- The structure of the op code (R41, R43): `op[5]` selects the layout builder, and within its patterns `op[0]` is the sign bit
that the delivered pattern carries in bit `W−1`. -/
def Obligations.OpCodeBitsSelectTheUnitAndTheSign : Prop :=
  ∀ (c : Config) (op : OpCode) (a b : Pattern) (i : Instr), decodeOp op a b = some i →
    i.isLayout = op.getLsbD 5
      ∧ (c.LayoutLegal → op.getLsbD 5 = true → op.getLsbD 4 = false →
          ∃ p, outcome c i = .value p ∧ p.width = c.W ∧ p.bits.getLsbD (c.W - 1) = op.getLsbD 0)

/-- A reserved op code is refused, whatever stands on the operand ports, and no defined one is: with ports of `W` bits the
step answers the refusal of a reserved code exactly for the codes of R49, and for every other code the command decodes. -/
def Obligations.ReservedOpCodesAndOnlyTheyAreRefused : Prop :=
  ∀ (s : State) (c : Command) (rest : List Command), s.pending = c :: rest → c.a.width = s.cfg.W → c.b.width = s.cfg.W →
    if c.op.toNat = 0x07 ∨ (0x0C ≤ c.op.toNat ∧ c.op.toNat ≤ 0x1F) ∨ 0x35 ≤ c.op.toNat then
      decode s.cfg.W c = .rejected (.reservedOpCode c.op) ∧ step s = .refused (.reservedOpCode c.op)
    else (∃ i, decode s.cfg.W c = .instr i) ∧ step s ≠ .refused (.reservedOpCode c.op)

/-! ## The step, its frame and its invariant -/

/-- A step runs the decoded instruction: the next command's triple stands on the input ports, the host has the rest left, nothing
else is changed, and the machine does what the instruction does there; with no command it refuses. -/
def Obligations.StepRunsTheDecodedInstruction : Prop :=
  (∀ (s : State) (c : Command) (rest : List Command) (i : Instr), s.pending = c :: rest → decode s.cfg.W c = .instr i →
      step s = exec i { s with pending := rest, op := c.op, a := c.a, b := c.b })
    ∧ ∀ s : State, s.pending = [] → step s = .refused .noCommand

/-- The invariant holds in the state before any command, for every legal instance and for the reset state. What the ports hold
then is the model's choice (notes/assumptions/2.md, 4.md). -/
def Obligations.InvariantHoldsAtReset : Prop :=
  (∀ c : Config, c.IntegerLegal → (State.powerUp c).Inv) ∧ State.reset.Inv

/-- Every step keeps the invariant: legal parameters, ports of `W` bits, a defined op code on the input ports, and on the output
ports the outcome of exactly that command (R21, R22, R33). -/
def Obligations.EveryStepKeepsTheInvariant : Prop :=
  ∀ s t : State, s.Inv → step s = .next t → t.Inv

/-- The three flag wires after any operation (R22): `ok = 1` exactly when `ovf = 0` and `dbz = 0`, never both causes; so exactly
one of the three patterns, and the cause number of R124 is 0, 1 or 2 with them. -/
def Obligations.ExactlyOneFlagPatternAfterEveryOperation : Prop :=
  ∀ (i : Instr) (s t : State), exec i s = .next t →
    (t.ok = true ↔ t.ovf = false ∧ t.dbz = false) ∧ ¬ (t.ovf = true ∧ t.dbz = true)
      ∧ (t.flags = (true, false, false) ∧ t.cause = 0 ∨ t.flags = (false, true, false) ∧ t.cause = 1
          ∨ t.flags = (false, false, true) ∧ t.cause = 2)

/-- The frame of all 32 operations: the four outputs are driven and nothing else changes; `y` is `W` bits wide when the operation
has a result, and the model's counter of free values moves exactly on a failure (notes/assumptions/5.md). -/
def Obligations.EveryOperationDrivesOnlyTheOutputs : Prop :=
  ∀ (i : Instr) (s t : State), exec i s = .next t →
    OnlyOutputs s t ∧ t.y.width = s.cfg.W ∧ t.draws = (if t.ok then s.draws else s.draws + 1)

/-- No operation and no step changes a static parameter (R18, R137), and a step leaves on the input ports the command it took.
That the command is the head of the list `State.pending`, whose tail is left, is the model's choice (notes/assumptions/3.md): the
spec says only that the host decides on the order and that a program is a list of commands (R141, R142). -/
def Obligations.StepKeepsParametersAndTakesOneCommand : Prop :=
  ∀ s t : State, step s = .next t →
    t.cfg = s.cfg ∧ s.pending = ⟨t.op, t.a, t.b⟩ :: t.pending ∧ t.a.width = s.cfg.W ∧ t.b.width = s.cfg.W

/-- When an operation completes: exactly when the parameters are legal for its unit and its operands are `W` bits wide; in every
such state it answers a next state with its outcome on the wires. The two refusals by name are the model's choice: of illegal
parameters notes/assumptions/6.md (93_implementation_defined.md I11: such a build "is not an instance of this hardware"), of an
operand of another width notes/assumptions/7.md (the ports take `W` bits, R33). -/
def Obligations.OperationsCompleteExactlyOnLegalInstances : Prop :=
  ∀ (i : Instr) (s : State),
    (i.wellFormed s.cfg = true → ∃ t, exec i s = .next t ∧ t.answer = some (outcome s.cfg i))
      ∧ (i.unitLegal s.cfg = false → exec i s = .refused .illegalParameters)
      ∧ (i.unitLegal s.cfg = true → i.operandsFit s.cfg.W = false → exec i s = .refused .portWidth)

/-! ## Which operation raises what -/

/-- Overflow is raised by, and only by, the operations of R122 under their conditions; its cause number is 1 and nothing else is
recorded. -/
def Obligations.OverflowRaisedByAndOnlyBy : Prop :=
  ∀ (i : Instr) (s t : State), exec i s = .next t →
    (t.flags = (false, true, false) ↔ OverflowCondition s.cfg i)
      ∧ (OverflowCondition s.cfg i → t.cause = 1 ∧ OnlyOutputs s t)

/-- DivideByZero is raised by, and only by, DIV, REM, DIVE and REME with a zero divisor, for every dividend; its cause number is
2 and nothing else is recorded (R123). -/
def Obligations.DivideByZeroRaisedByAndOnlyBy : Prop :=
  ∀ (i : Instr) (s t : State), exec i s = .next t →
    (t.flags = (false, false, true) ↔
        ∃ a b, (i = .div a b ∨ i = .rem a b ∨ i = .dive a b ∨ i = .reme a b) ∧ sval b = 0)
      ∧ (t.flags = (false, false, true) → t.cause = 2 ∧ OnlyOutputs s t)

/-- REM and REME at `(SMIN, −1)` raise Overflow although the remainder exists and is 0, and that is the only input on which any
operation fails although its own mathematical result is representable (R79). -/
def Obligations.OnlyRemaindersOfTheMinimumFailWithARepresentableResult : Prop :=
  ∀ (s : State) (i : Instr) (r : Int), i.wellFormed s.cfg = true → mathResult i = some r →
    ((∃ t, exec i s = .next t ∧ t.ok = false ∧ Representable s.cfg r) ↔
        ∃ a b, (i = .rem a b ∨ i = .reme a b) ∧ sval a = smin s.cfg ∧ sval b = -1)
      ∧ ∀ a b, i = .rem a b ∨ i = .reme a b → sval a = smin s.cfg → sval b = -1 →
          r = 0 ∧ ∃ t, exec i s = .next t ∧ RaisedOverflow s t

/-! ## Units 1 to 3 -/

/-- ADD (R56). -/
def Obligations.AddDeliversTheExactSumOrOverflows : Prop :=
  (∀ (c : Config) (a b : Pattern), a.width = c.W → b.width = c.W → decode c.W ⟨0x00#6, a, b⟩ = .instr (.add a b))
    ∧ ∀ (s : State) (a b : Pattern), BinaryFits s a b →
        if smax s.cfg < sval a + sval b ∨ sval a + sval b < smin s.cfg then
          ∃ t, exec (.add a b) s = .next t ∧ RaisedOverflow s t
        else ∃ t, exec (.add a b) s = .next t ∧ DeliveredInt s t (sval a + sval b)

/-- SUB (R57). -/
def Obligations.SubDeliversTheExactDifferenceOrOverflows : Prop :=
  (∀ (c : Config) (a b : Pattern), a.width = c.W → b.width = c.W → decode c.W ⟨0x01#6, a, b⟩ = .instr (.sub a b))
    ∧ ∀ (s : State) (a b : Pattern), BinaryFits s a b →
        if smax s.cfg < sval a - sval b ∨ sval a - sval b < smin s.cfg then
          ∃ t, exec (.sub a b) s = .next t ∧ RaisedOverflow s t
        else ∃ t, exec (.sub a b) s = .next t ∧ DeliveredInt s t (sval a - sval b)

/-- ADDU: `b` is read unsigned, and the sum is never below `SMIN` (R60). -/
def Obligations.AdduDeliversTheExactSumOrOverflows : Prop :=
  (∀ (c : Config) (a b : Pattern), a.width = c.W → b.width = c.W → decode c.W ⟨0x02#6, a, b⟩ = .instr (.addu a b))
    ∧ ∀ (s : State) (a b : Pattern), BinaryFits s a b →
        smin s.cfg ≤ sval a + b.uval
          ∧ if smax s.cfg < sval a + b.uval then ∃ t, exec (.addu a b) s = .next t ∧ RaisedOverflow s t
            else ∃ t, exec (.addu a b) s = .next t ∧ DeliveredInt s t (sval a + b.uval)

/-- SUBU: `b` is read unsigned, and the difference never exceeds `SMAX` (R61). -/
def Obligations.SubuDeliversTheExactDifferenceOrOverflows : Prop :=
  (∀ (c : Config) (a b : Pattern), a.width = c.W → b.width = c.W → decode c.W ⟨0x03#6, a, b⟩ = .instr (.subu a b))
    ∧ ∀ (s : State) (a b : Pattern), BinaryFits s a b →
        sval a - b.uval ≤ smax s.cfg
          ∧ if sval a - b.uval < smin s.cfg then ∃ t, exec (.subu a b) s = .next t ∧ RaisedOverflow s t
            else ∃ t, exec (.subu a b) s = .next t ∧ DeliveredInt s t (sval a - b.uval)

/-- NEG: Overflow exactly at the minimum, otherwise the exact negation, which is complement plus one, and negating the result gives
the operand back; port `b` is ignored (R66). The sign bits before and after tell the failure. -/
def Obligations.NegDeliversTheNegationUnlessTheMinimum : Prop :=
  (∀ (c : Config) (a b : Pattern), a.width = c.W → b.width = c.W → decode c.W ⟨0x04#6, a, b⟩ = .instr (.neg a))
    ∧ ∀ (s : State) (a : Pattern), UnaryFits s a →
        (negOverflowBit a = true ↔ sval a = smin s.cfg)
          ∧ if sval a = smin s.cfg then ∃ t, exec (.neg a) s = .next t ∧ RaisedOverflow s t
            else ∃ t, exec (.neg a) s = .next t ∧ DeliveredInt s t (-sval a) ∧ t.y = complementPlusOne a
              ∧ ∃ u, exec (.neg t.y) t = .next u ∧ Delivered t u a

/-- ABS: Overflow exactly at the minimum, a non-negative operand unchanged bit for bit, otherwise the negation; the delivered sign
bit is clear; port `b` is ignored (R67). -/
def Obligations.AbsDeliversTheMagnitudeUnlessTheMinimum : Prop :=
  (∀ (c : Config) (a b : Pattern), a.width = c.W → b.width = c.W → decode c.W ⟨0x05#6, a, b⟩ = .instr (.abs a))
    ∧ ∀ (s : State) (a : Pattern), UnaryFits s a →
        if sval a = smin s.cfg then ∃ t, exec (.abs a) s = .next t ∧ RaisedOverflow s t
        else if sval a < 0 then
          ∃ t, exec (.abs a) s = .next t ∧ DeliveredInt s t (-sval a) ∧ signBit t.y = false
        else ∃ t, exec (.abs a) s = .next t ∧ Delivered s t a ∧ signBit t.y = false

/-- MUL (R71). -/
def Obligations.MulDeliversTheExactProductOrOverflows : Prop :=
  (∀ (c : Config) (a b : Pattern), a.width = c.W → b.width = c.W → decode c.W ⟨0x06#6, a, b⟩ = .instr (.mul a b))
    ∧ ∀ (s : State) (a b : Pattern), BinaryFits s a b →
        if smax s.cfg < sval a * sval b ∨ sval a * sval b < smin s.cfg then
          ∃ t, exec (.mul a b) s = .next t ∧ RaisedOverflow s t
        else ∃ t, exec (.mul a b) s = .next t ∧ DeliveredInt s t (sval a * sval b)

/-! ## Unit 4 -/

/-- The guard common to the four divisions, on patterns: `b` all zeros raises DivideByZero; `a` the sign bit alone with `b` all
ones raises Overflow; otherwise there is a result (R74). -/
def Obligations.DivisionGuardIsCommonAndReadsOffThePatterns : Prop :=
  ∀ (s : State) (a b : Pattern) (i : Instr), BinaryFits s a b →
    (i = .div a b ∨ i = .rem a b ∨ i = .dive a b ∨ i = .reme a b) →
    (sval b = 0 ↔ b.uval = 0)
      ∧ (sval a = smin s.cfg ∧ sval b = -1 ↔ a.uval = 2 ^ (s.cfg.W - 1) ∧ b.uval = 2 ^ s.cfg.W - 1)
      ∧ if sval b = 0 then ∃ t, exec i s = .next t ∧ RaisedDivideByZero s t
        else if sval a = smin s.cfg ∧ sval b = -1 then ∃ t, exec i s = .next t ∧ RaisedOverflow s t
        else ∃ t v, exec i s = .next t ∧ DeliveredInt s t v ∧ mathResult i = some v

/-- DIV delivers the quotient rounded toward zero (R77): the integer `q` whose product with the divisor is at most the dividend in
magnitude and within one divisor of it, with the sign of the rational quotient. -/
def Obligations.DivDeliversTheTruncatingQuotient : Prop :=
  (∀ (c : Config) (a b : Pattern), a.width = c.W → b.width = c.W → decode c.W ⟨0x08#6, a, b⟩ = .instr (.div a b))
    ∧ ∀ (s : State) (a b : Pattern), BinaryFits s a b →
        if sval b = 0 then ∃ t, exec (.div a b) s = .next t ∧ RaisedDivideByZero s t
        else if sval a = smin s.cfg ∧ sval b = -1 then ∃ t, exec (.div a b) s = .next t ∧ RaisedOverflow s t
        else ∃ t q, exec (.div a b) s = .next t ∧ DeliveredInt s t q
          ∧ q = truncQuotient (sval a) (sval b)
          ∧ |sval b * q| ≤ |sval a| ∧ |sval a - sval b * q| < |sval b| ∧ 0 ≤ sval a * (sval b * q)

/-- REM delivers the remainder of the truncating quotient: `n − d·q`, smaller than the divisor, zero or with the sign of the
dividend; at `(SMIN, −1)` it raises Overflow (R78). -/
def Obligations.RemDeliversTheTruncatingRemainder : Prop :=
  (∀ (c : Config) (a b : Pattern), a.width = c.W → b.width = c.W → decode c.W ⟨0x09#6, a, b⟩ = .instr (.rem a b))
    ∧ ∀ (s : State) (a b : Pattern), BinaryFits s a b →
        if sval b = 0 then ∃ t, exec (.rem a b) s = .next t ∧ RaisedDivideByZero s t
        else if sval a = smin s.cfg ∧ sval b = -1 then ∃ t, exec (.rem a b) s = .next t ∧ RaisedOverflow s t
        else ∃ t r, exec (.rem a b) s = .next t ∧ DeliveredInt s t r
          ∧ r = truncRemainder (sval a) (sval b) ∧ sval b ∣ sval a - r ∧ |r| < |sval b| ∧ 0 ≤ sval a * r

/-- DIVE delivers the Euclidean quotient: what it leaves over is not negative and smaller than the divisor's magnitude (R81, with
the definition of R80). -/
def Obligations.DiveDeliversTheEuclideanQuotient : Prop :=
  (∀ (c : Config) (a b : Pattern), a.width = c.W → b.width = c.W → decode c.W ⟨0x0A#6, a, b⟩ = .instr (.dive a b))
    ∧ ∀ (s : State) (a b : Pattern), BinaryFits s a b →
        if sval b = 0 then ∃ t, exec (.dive a b) s = .next t ∧ RaisedDivideByZero s t
        else if sval a = smin s.cfg ∧ sval b = -1 then ∃ t, exec (.dive a b) s = .next t ∧ RaisedOverflow s t
        else ∃ t q, exec (.dive a b) s = .next t ∧ DeliveredInt s t q
          ∧ q = euclidQuotient (sval a) (sval b) ∧ 0 ≤ sval a - sval b * q ∧ sval a - sval b * q < |sval b|

/-- REME delivers the Euclidean remainder: not negative, smaller than the divisor's magnitude, congruent to the dividend, sign bit
clear; at `(SMIN, −1)` it raises Overflow (R82, with the definition of R80). -/
def Obligations.RemeDeliversTheEuclideanRemainder : Prop :=
  (∀ (c : Config) (a b : Pattern), a.width = c.W → b.width = c.W → decode c.W ⟨0x0B#6, a, b⟩ = .instr (.reme a b))
    ∧ ∀ (s : State) (a b : Pattern), BinaryFits s a b →
        if sval b = 0 then ∃ t, exec (.reme a b) s = .next t ∧ RaisedDivideByZero s t
        else if sval a = smin s.cfg ∧ sval b = -1 then ∃ t, exec (.reme a b) s = .next t ∧ RaisedOverflow s t
        else ∃ t r, exec (.reme a b) s = .next t ∧ DeliveredInt s t r
          ∧ r = euclidRemainder (sval a) (sval b) ∧ sval b ∣ sval a - r ∧ 0 ≤ r ∧ r < |sval b| ∧ signBit t.y = false

/-- The Euclidean pair as R80 defines it, and its three other descriptions there: the one remainder in range, a step from the
truncating pair, the floor for a positive divisor and the ceiling for a negative one. -/
def Obligations.EuclideanPairIsDefinedByItsRemainder : Prop :=
  ∀ n d : Int, d ≠ 0 →
    (0 ≤ euclidRemainder n d ∧ euclidRemainder n d < |d| ∧ d ∣ n - euclidRemainder n d)
      ∧ (∀ r, 0 ≤ r → r < |d| → d ∣ n - r → r = euclidRemainder n d)
      ∧ n = d * euclidQuotient n d + euclidRemainder n d
      ∧ (if 0 ≤ truncRemainder n d then euclidQuotient n d = truncQuotient n d ∧ euclidRemainder n d = truncRemainder n d
         else if 0 < d then euclidQuotient n d = truncQuotient n d - 1 ∧ euclidRemainder n d = truncRemainder n d + d
         else euclidQuotient n d = truncQuotient n d + 1 ∧ euclidRemainder n d = truncRemainder n d - d)
      ∧ (0 < d → euclidQuotient n d = ⌊(n : ℚ) / d⌋) ∧ (d < 0 → euclidQuotient n d = ⌈(n : ℚ) / d⌉)

/-! ## Unit 5 -/

/-- FC_ZERO and FC_NEG_ZERO: exponent and mantissa zero, sign clear and set, whatever is on the operand ports. -/
def Obligations.ZeroPatterns : Prop :=
  (∀ c : Config, SelectedBy c 0x20#6 .fcZero ∧ SelectedBy c 0x21#6 .fcNegZero)
    ∧ ∀ s : State, s.cfg.LayoutLegal →
        (∃ t, exec .fcZero s = .next t ∧ DeliveredFields s t false 0 0)
          ∧ ∃ t, exec .fcNegZero s = .next t ∧ DeliveredFields s t true 0 0

/-- FC_ONE and FC_NEG_ONE: exponent field `BIAS`, mantissa zero. -/
def Obligations.OnePatterns : Prop :=
  (∀ c : Config, SelectedBy c 0x22#6 .fcOne ∧ SelectedBy c 0x23#6 .fcNegOne)
    ∧ ∀ s : State, s.cfg.LayoutLegal →
        (∃ t, exec .fcOne s = .next t ∧ DeliveredFields s t false (2 ^ (s.cfg.E - 1) - 1) 0)
          ∧ ∃ t, exec .fcNegOne s = .next t ∧ DeliveredFields s t true (2 ^ (s.cfg.E - 1) - 1) 0

/-- FC_MIN_POSITIVE and FC_MAX_NEGATIVE: exponent field 1, mantissa zero. -/
def Obligations.SmallestNormalPatterns : Prop :=
  (∀ c : Config, SelectedBy c 0x24#6 .fcMinPositive ∧ SelectedBy c 0x25#6 .fcMaxNegative)
    ∧ ∀ s : State, s.cfg.LayoutLegal →
        (∃ t, exec .fcMinPositive s = .next t ∧ DeliveredFields s t false 1 0)
          ∧ ∃ t, exec .fcMaxNegative s = .next t ∧ DeliveredFields s t true 1 0

/-- FC_MAX and FC_MIN: exponent field all ones but its lowest bit, `2^E − 2`, mantissa all ones. -/
def Obligations.LargestFinitePatterns : Prop :=
  (∀ c : Config, SelectedBy c 0x26#6 .fcMax ∧ SelectedBy c 0x27#6 .fcMin)
    ∧ ∀ s : State, s.cfg.LayoutLegal →
        (∃ t, exec .fcMax s = .next t ∧ DeliveredFields s t false (2 ^ s.cfg.E - 2) (2 ^ s.cfg.MB - 1))
          ∧ ∃ t, exec .fcMin s = .next t ∧ DeliveredFields s t true (2 ^ s.cfg.E - 2) (2 ^ s.cfg.MB - 1)

/-- The four subnormal constants: exponent field zero, mantissa 1 for the two nearest zero and all ones for the two extremes. -/
def Obligations.SubnormalPatterns : Prop :=
  (∀ c : Config, SelectedBy c 0x28#6 .fcMinPositiveSubnormal ∧ SelectedBy c 0x29#6 .fcMaxNegativeSubnormal
      ∧ SelectedBy c 0x2A#6 .fcMaxSubnormal ∧ SelectedBy c 0x2B#6 .fcMinSubnormal)
    ∧ ∀ s : State, s.cfg.LayoutLegal →
        (∃ t, exec .fcMinPositiveSubnormal s = .next t ∧ DeliveredFields s t false 0 1)
          ∧ (∃ t, exec .fcMaxNegativeSubnormal s = .next t ∧ DeliveredFields s t true 0 1)
          ∧ (∃ t, exec .fcMaxSubnormal s = .next t ∧ DeliveredFields s t false 0 (2 ^ s.cfg.MB - 1))
          ∧ ∃ t, exec .fcMinSubnormal s = .next t ∧ DeliveredFields s t true 0 (2 ^ s.cfg.MB - 1)

/-- FC_INFINITY and FC_NEG_INFINITY: exponent field all ones, mantissa zero. -/
def Obligations.InfinityPatterns : Prop :=
  (∀ c : Config, SelectedBy c 0x2C#6 .fcInfinity ∧ SelectedBy c 0x2D#6 .fcNegInfinity)
    ∧ ∀ s : State, s.cfg.LayoutLegal →
        (∃ t, exec .fcInfinity s = .next t ∧ DeliveredFields s t false (2 ^ s.cfg.E - 1) 0)
          ∧ ∃ t, exec .fcNegInfinity s = .next t ∧ DeliveredFields s t true (2 ^ s.cfg.E - 1) 0

/-- FC_NAN and FC_NEG_NAN: exponent field all ones, the payload in the mantissa, for every legal payload. -/
def Obligations.NanPatterns : Prop :=
  (∀ c : Config, SelectedBy c 0x2E#6 .fcNan ∧ SelectedBy c 0x2F#6 .fcNegNan)
    ∧ ∀ s : State, s.cfg.LayoutLegal →
        (∃ t, exec .fcNan s = .next t ∧ DeliveredFields s t false (2 ^ s.cfg.E - 1) s.cfg.NAN_PAYLOAD)
          ∧ ∃ t, exec .fcNegNan s = .next t ∧ DeliveredFields s t true (2 ^ s.cfg.E - 1) s.cfg.NAN_PAYLOAD

/-- FC_RADIX, FC_MANTISSA_DIGITS and FC_EXP_BIAS: the numbers 2, `MB + 1` and `2^(E−1) − 1`; the last is the maximum signed
pattern shifted right by `MB + 1` (R107, R108, R109). -/
def Obligations.RadixDigitsAndBiasScalars : Prop :=
  (∀ c : Config, SelectedBy c 0x30#6 .fcRadix ∧ SelectedBy c 0x31#6 .fcMantissaDigits ∧ SelectedBy c 0x32#6 .fcExpBias)
    ∧ ∀ s : State, s.cfg.LayoutLegal →
        (∃ t, exec .fcRadix s = .next t ∧ DeliveredInt s t 2)
          ∧ (∃ t, exec .fcMantissaDigits s = .next t ∧ DeliveredInt s t (s.cfg.MB + 1))
          ∧ ∃ t, exec .fcExpBias s = .next t ∧ DeliveredInt s t (2 ^ (s.cfg.E - 1) - 1)
              ∧ t.y = ⟨s.cfg.W, (pat s.cfg.W (smax s.cfg)).bits >>> (s.cfg.MB + 1)⟩

/-- FC_MIN_EXP and FC_MAX_EXP: `2 − BIAS = 3 − 2^(E−1)` and `BIAS + 1 = 2^(E−1)`, signed. The spec writes both from general
knowledge (K3, notes/assumptions/10.md). -/
def Obligations.ExponentRangeScalars : Prop :=
  (∀ c : Config, SelectedBy c 0x33#6 .fcMinExp ∧ SelectedBy c 0x34#6 .fcMaxExp)
    ∧ ∀ s : State, s.cfg.LayoutLegal →
        (∃ t, exec .fcMinExp s = .next t ∧ DeliveredInt s t (3 - 2 ^ (s.cfg.E - 1)))
          ∧ ∃ t, exec .fcMaxExp s = .next t ∧ DeliveredInt s t (2 ^ (s.cfg.E - 1))

/-- The negative constant of each class is the positive one with the sign bit set, and the class is in `op[3:1]` (R88). -/
def Obligations.NegativeConstantIsThePositiveOneWithItsSign : Prop :=
  ∀ (c : Config) (op : OpCode) (a b : Pattern), c.LayoutLegal → op.extractLsb' 4 2 = 2#2 → op.getLsbD 0 = false →
    ∃ (i j : Instr) (p : BitVec c.W), decodeOp op a b = some i ∧ decodeOp (op ||| 1#6) a b = some j
      ∧ outcome c i = .value ⟨c.W, p⟩ ∧ outcome c j = .value ⟨c.W, p ||| (1#c.W <<< (c.W - 1))⟩

/-- The encoding classes of the sixteen constants, for every legal layout. -/
def Obligations.ConstantsLieInTheirEncodingClasses : Prop :=
  ∀ c : Config, c.LayoutLegal →
    (floatClass c (fcZeroPattern c) = .zero ∧ floatClass c (fcNegZeroPattern c) = .zero)
      ∧ (floatClass c (fcOnePattern c) = .normal ∧ floatClass c (fcNegOnePattern c) = .normal)
      ∧ (floatClass c (fcMinPositivePattern c) = .normal ∧ floatClass c (fcMaxNegativePattern c) = .normal)
      ∧ (floatClass c (fcMaxPattern c) = .normal ∧ floatClass c (fcMinPattern c) = .normal)
      ∧ (floatClass c (fcMinPositiveSubnormalPattern c) = .subnormal ∧ floatClass c (fcMaxNegativeSubnormalPattern c) = .subnormal)
      ∧ (floatClass c (fcMaxSubnormalPattern c) = .subnormal ∧ floatClass c (fcMinSubnormalPattern c) = .subnormal)
      ∧ (floatClass c (fcInfinityPattern c) = .infinity ∧ floatClass c (fcNegInfinityPattern c) = .infinity)
      ∧ (floatClass c (fcNanPattern c) = .nan ∧ floatClass c (fcNegNanPattern c) = .nan)

/-- The order among the constants, read as numbers, for every legal layout; ONE and NEG_ONE are 1 and −1, and the two zeros are one
number. The numeric reading is general knowledge in the spec (K4, notes/assumptions/11.md). -/
def Obligations.ConstantsAreOrderedAsNumbers : Prop :=
  ∀ c : Config, c.LayoutLegal →
    let v := floatReading c
    (v (fcNegInfinityPattern c)).lt (v (fcMinPattern c)) ∧ (v (fcMinPattern c)).lt (v (fcMaxNegativePattern c))
      ∧ (v (fcMaxNegativePattern c)).lt (v (fcMinSubnormalPattern c))
      ∧ (v (fcMinSubnormalPattern c)).le (v (fcMaxNegativeSubnormalPattern c))
      ∧ (v (fcMaxNegativeSubnormalPattern c)).lt (v (fcNegZeroPattern c))
      ∧ v (fcNegZeroPattern c) = v (fcZeroPattern c)
      ∧ (v (fcZeroPattern c)).lt (v (fcMinPositiveSubnormalPattern c))
      ∧ (v (fcMinPositiveSubnormalPattern c)).le (v (fcMaxSubnormalPattern c))
      ∧ (v (fcMaxSubnormalPattern c)).lt (v (fcMinPositivePattern c)) ∧ (v (fcMinPositivePattern c)).lt (v (fcMaxPattern c))
      ∧ (v (fcMaxPattern c)).lt (v (fcInfinityPattern c))
      ∧ v (fcOnePattern c) = .finite 1 ∧ v (fcNegOnePattern c) = .finite (-1)
      ∧ (v (fcMinPattern c)).lt (v (fcNegOnePattern c)) ∧ (v (fcNegOnePattern c)).le (v (fcMaxNegativePattern c))
      ∧ (v (fcMinPositivePattern c)).le (v (fcOnePattern c)) ∧ (v (fcOnePattern c)).lt (v (fcMaxPattern c))
      ∧ (v (fcNanPattern c) = .notANumber ∧ v (fcNegNanPattern c) = .notANumber)

/-- The same order on the bit strings, which needs no numeric reading: the non-negative constants rise as unsigned patterns, the
negative ones fall, and the neighbours at the two class boundaries differ by one. -/
def Obligations.ConstantsAreOrderedAsPatterns : Prop :=
  ∀ c : Config, c.LayoutLegal →
    (fcZeroPattern c).uval < (fcMinPositiveSubnormalPattern c).uval
      ∧ (fcMinPositiveSubnormalPattern c).uval ≤ (fcMaxSubnormalPattern c).uval
      ∧ (fcMaxSubnormalPattern c).uval + 1 = (fcMinPositivePattern c).uval
      ∧ (fcMinPositivePattern c).uval ≤ (fcOnePattern c).uval ∧ (fcOnePattern c).uval < (fcMaxPattern c).uval
      ∧ (fcMaxPattern c).uval + 1 = (fcInfinityPattern c).uval ∧ (fcInfinityPattern c).uval < (fcNanPattern c).uval
      ∧ (fcNegZeroPattern c).uval < (fcMaxNegativeSubnormalPattern c).uval
      ∧ (fcMaxNegativeSubnormalPattern c).uval ≤ (fcMinSubnormalPattern c).uval
      ∧ (fcMinSubnormalPattern c).uval < (fcMaxNegativePattern c).uval
      ∧ (fcMaxNegativePattern c).uval ≤ (fcNegOnePattern c).uval ∧ (fcNegOnePattern c).uval < (fcMinPattern c).uval
      ∧ (fcMinPattern c).uval < (fcNegInfinityPattern c).uval

/-- Where constants coincide: ONE is MIN_POSITIVE exactly when `E = 2`, and MAX_SUBNORMAL is MIN_POSITIVE_SUBNORMAL exactly when
`MB = 1`; likewise their negatives. -/
def Obligations.ConstantsCoincideOnlyAtTheSmallestParameters : Prop :=
  ∀ c : Config, c.LayoutLegal →
    (fcOnePattern c = fcMinPositivePattern c ↔ c.E = 2) ∧ (fcNegOnePattern c = fcMaxNegativePattern c ↔ c.E = 2)
      ∧ (fcMaxSubnormalPattern c = fcMinPositiveSubnormalPattern c ↔ c.MB = 1)
      ∧ (fcMinSubnormalPattern c = fcMaxNegativeSubnormalPattern c ↔ c.MB = 1)
      ∧ (c.E = 2 → sval (fcMinExpPattern c) = 1 ∧ sval (fcMaxExpPattern c) = 2) ∧ (c.MB = 1 → c.NAN_PAYLOAD = 1)

/-! ## Values -/

/-- The signed reading is a bijection with `[SMIN, SMAX]`, the sign bit is the top bit and the top bit of the top digit, and the
patterns of `SMIN`, `SMAX`, `−1` and `0` are as written (R14, with the readings of R9). -/
def Obligations.SignedReadingIsABijection : Prop :=
  ∀ c : Config, c.IntegerLegal →
    (∀ v, Representable c v → (pat c.W v).width = c.W ∧ sval (pat c.W v) = v ∧ ((pat c.W v).uval : Int) = v % 2 ^ c.W)
      ∧ (∀ p : Pattern, p.width = c.W → Representable c (sval p) ∧ pat c.W (sval p) = p)
      ∧ (∀ p q : Pattern, p.width = c.W → q.width = c.W → sval p = sval q → p = q)
      ∧ (∀ p : Pattern, p.width = c.W → (p.bits.getLsbD (c.W - 1) = true ↔ sval p < 0)
          ∧ (digit c p (c.N - 1)).getLsbD (c.DIGIT_BITS - 1) = p.bits.getLsbD (c.W - 1))
      ∧ pat c.W (-1) = allOnes c ∧ (pat c.W (smin c)).uval = 2 ^ (c.W - 1) ∧ (pat c.W (smax c)).uval = 2 ^ (c.W - 1) - 1
      ∧ (pat c.W 0).uval = 0

/-- A value is exactly `N` digits, least significant first, digit `i` in bits `(i+1)·DIGIT_BITS − 1` down to `i·DIGIT_BITS`, and
its numeric value is `Σ digit[i] · BASE^i` (R13). -/
def Obligations.DigitsSpellTheUnsignedValue : Prop :=
  ∀ (c : Config) (p : Pattern), p.width = c.W →
    (digits c p).length = c.N ∧ digitsValue c.DIGIT_BITS (digits c p) = p.uval ∧ p.uval < 2 ^ c.W
      ∧ ∀ i, i < c.N → (digits c p)[i]? = some (BitVec.ofNat c.DIGIT_BITS (p.uval / 2 ^ (i * c.DIGIT_BITS)))

/-! ## Laws and equivalences -/

/-- The machine and the bit-level description agree on every operation an instance can be given: the carry and sign forms of the
adder, the complement of the negator, the `W + 1` equal bits of the multiplier, the guard on patterns and the steps of the divider,
the shifts and masks of the layout builder. Some of these forms are the model's and not the spec's (DEDUCED,
notes/assumptions/14.md): `signedQuotient` and `signedRemainder` of the divider, `nanBits` for a payload other than the default, and
the forms of RADIX, MANTISSA_DIGITS, MIN_EXP and MAX_EXP. -/
def Obligations.MachineEqualsTheBitLevelDatapath : Prop :=
  ∀ (s : State) (i : Instr), i.wellFormed s.cfg = true →
    ∃ t, exec i s = .next t ∧ OnlyOutputs s t ∧ t.answer = some (datapath s.cfg i)

/-- The unsigned detectors are the signed ones exclusive-or the top bit of `b`. -/
def Obligations.UnsignedDetectorIsTheSignedOneXorTheTopBit : Prop :=
  ∀ (c : Config) (a b : Pattern), c.IntegerLegal → a.width = c.W → b.width = c.W →
    adduOverflowBit c.W a b = (addOverflowBit c.W a b ^^ signBit b)
      ∧ subuOverflowBit c.W a b = (subOverflowBit c.W a b ^^ signBit b)
      ∧ (adduOverflowBit c.W a b = true ↔ outcome c (.addu a b) = .overflow)
      ∧ (subuOverflowBit c.W a b = true ↔ outcome c (.subu a b) = .overflow)

/-- The laws of the adder unit: commuting, undoing, zero, and agreement of the signed and unsigned forms. -/
def Obligations.AdderLaws : Prop :=
  ∀ (c : Config) (a b y : Pattern), c.IntegerLegal → a.width = c.W → b.width = c.W →
    outcome c (.add a b) = outcome c (.add b a)
      ∧ (outcome c (.add a b) = .value y → outcome c (.sub y b) = .value a ∧ outcome c (.sub y a) = .value b)
      ∧ (outcome c (.sub a b) = .value y → outcome c (.add y b) = .value a)
      ∧ (∀ i ∈ [Instr.add a (.zeros c.W), .sub a (.zeros c.W), .addu a (.zeros c.W), .subu a (.zeros c.W)],
          outcome c i = .value a)
      ∧ (signBit b = false → outcome c (.addu a b) = outcome c (.add a b) ∧ outcome c (.subu a b) = outcome c (.sub a b))
      ∧ (outcome c (.addu a b) = .value y → outcome c (.subu y b) = .value a)
      ∧ (outcome c (.subu a b) = .value y → outcome c (.addu y b) = .value a)

/-- NEG is subtraction from zero and multiplication by −1; away from the minimum DIV by −1 is NEG; ABS is NEG on a set sign bit. -/
def Obligations.NegatorAgreesWithTheOtherUnits : Prop :=
  ∀ (c : Config) (a : Pattern), c.IntegerLegal → a.width = c.W →
    outcome c (.neg a) = outcome c (.sub (.zeros c.W) a)
      ∧ outcome c (.neg a) = outcome c (.mul a (pat c.W (-1)))
      ∧ outcome c (.neg a) = outcome c (.div a (pat c.W (-1)))
      ∧ outcome c (.abs a) = (if signBit a then outcome c (.neg a) else .value a)

/-- MUL commutes, and division undoes it with remainder zero. -/
def Obligations.MultiplierLaws : Prop :=
  ∀ (c : Config) (a b y : Pattern), c.IntegerLegal → a.width = c.W → b.width = c.W →
    outcome c (.mul a b) = outcome c (.mul b a)
      ∧ (outcome c (.mul a b) = .value y → sval b ≠ 0 →
          outcome c (.div y b) = .value a ∧ outcome c (.rem y b) = .value (pat c.W 0))

/-- The division identity for both pairs, with the range and sign of each remainder, where they agree and where they differ. -/
def Obligations.DivisionLaws : Prop :=
  ∀ (c : Config) (a b q r q' r' : Pattern), c.IntegerLegal → a.width = c.W → b.width = c.W →
    outcome c (.div a b) = .value q → outcome c (.rem a b) = .value r →
    outcome c (.dive a b) = .value q' → outcome c (.reme a b) = .value r' →
    (sval a = sval b * sval q + sval r ∧ sval a = sval b * sval q' + sval r')
      ∧ (|sval r| < |sval b| ∧ (sval r = 0 ∨ (sval r < 0 ↔ sval a < 0)))
      ∧ (0 ≤ sval r' ∧ sval r' < |sval b|)
      ∧ (if 0 ≤ sval a ∨ sval b ∣ sval a then q' = q ∧ r' = r
         else sval r' = sval r + |sval b| ∧ sval q' = if 0 < sval b then sval q - 1 else sval q + 1)

/-- Exactly `2^W + 1` of the `2^(2W)` operand pairs fail, the same pairs for all four divisions. -/
def Obligations.DivisionFailsOnTwoToTheWPlusOnePairs : Prop :=
  ∀ c : Config, c.IntegerLegal →
    ∀ f ∈ [Instr.div, Instr.rem, Instr.dive, Instr.reme],
      ((Finset.range (2 ^ c.W) ×ˢ Finset.range (2 ^ c.W)).filter
        fun p => (outcome c (f (upat c.W p.1) (upat c.W p.2))).ok = false).card = 2 ^ c.W + 1

/-- How many of the `2^(2W)` pairs the adder unit fails on, with `H = 2^(W−1)`: `H²` for ADD and for SUB, `H·(2H − 1)` for ADDU and
for SUBU. -/
def Obligations.AdderFailsOnCountedPairs : Prop :=
  ∀ c : Config, c.IntegerLegal →
    let H := 2 ^ (c.W - 1)
    let failing := fun f : Pattern → Pattern → Instr =>
      ((Finset.range (2 ^ c.W) ×ˢ Finset.range (2 ^ c.W)).filter
        fun p => outcome c (f (upat c.W p.1) (upat c.W p.2)) = .overflow).card
    failing .add = H ^ 2 ∧ failing .sub = H ^ 2 ∧ failing .addu = H * (2 * H - 1) ∧ failing .subu = H * (2 * H - 1)

/-! ## Transactions do not touch one another -/

/-- The outcome of a transaction depends on its own command and the static parameters and on nothing else: two instances with the
same parameters, whatever happened on them before and whatever is to come, answer the same command alike (R36). -/
def Obligations.OutcomeDependsOnTheCommandAlone : Prop :=
  ∀ (s s' : State) (c : Command) (rest rest' : List Command), s.cfg = s'.cfg → s.pending = c :: rest → s'.pending = c :: rest' →
    (∀ r, step s = .refused r ↔ step s' = .refused r)
      ∧ ∀ t, step s = .next t → ∃ t', step s' = .next t' ∧ t'.answer = t.answer ∧ t'.flags = t.flags

/-- A run of a program is the list of the outcomes of its commands, each on the instance alone, in the order the host issues them;
after the last command there is nothing more to run. It holds for every list of commands that the instance accepts. The list in the
state and the refusal at its end are the model's choice (notes/assumptions/3.md, 9.md). -/
def Obligations.RunOfAProgramIsTheListOfItsOutcomes : Prop :=
  ∀ (s : State) (cmds : List Command), s.pending = cmds → (∀ o ∈ outcomes s.cfg cmds, o ≠ none) →
    shown s cmds.length = outcomes s.cfg cmds
      ∧ ∃ t : State, Host.Core.run core cmds.length s = .next t ∧ t.cfg = s.cfg ∧ step t = .refused .noCommand
end

