-- ==== Sys2Proof/Laws/Decode.lean ====
section
/-! SUPPORT. Laws/Decode.lean: what decoding a command can answer, and what the encoder's ports hold. -/
namespace Sys2Proof

/-- A command is an instruction exactly when its ports are `w` bits wide and its op code is defined. -/
theorem decode_eq_instr {w : Nat} {c : Command} {i : Instr} :
    decode w c = .instr i ↔ c.a.width = w ∧ c.b.width = w ∧ decodeOp c.op c.a c.b = some i := by
  unfold decode
  by_cases h : c.a.width = w ∧ c.b.width = w
  · rw [if_pos h]
    cases hd : decodeOp c.op c.a c.b <;> simp [h.1, h.2]
  · rw [if_neg h]
    simp only [reduceCtorEq, false_iff]
    rintro ⟨h1, h2, -⟩
    exact h ⟨h1, h2⟩

/-- A defined op code is the op code of the instruction it selects. -/
theorem opCode_of_decodeOp {op : OpCode} {a b : Pattern} {i : Instr} (h : decodeOp op a b = some i) : i.opCode = op := by
  unfold decodeOp at h
  split at h <;> first | (cases h; rfl) | cases h

/-- The operands of a decoded instruction are ports of the command. -/
theorem operandsFit_of_decodeOp {op : OpCode} {a b : Pattern} {i : Instr} {w : Nat} (ha : a.width = w) (hb : b.width = w)
    (h : decodeOp op a b = some i) : i.operandsFit w = true := by
  unfold decodeOp at h
  split at h <;> first | (cases h; simp [Instr.operandsFit, Instr.operands, ha, hb]) | cases h

/-- The ports of an encoded instruction are `w` bits wide when its operands are. -/
theorem portA_width {w : Nat} {i : Instr} (h : i.operandsFit w = true) : (i.portA w).width = w := by
  cases i <;> simp_all [Instr.operandsFit, Instr.operands, Instr.portA, Pattern.zeros]

theorem portB_width {w : Nat} {i : Instr} (h : i.operandsFit w = true) : (i.portB w).width = w := by
  cases i <;> simp_all [Instr.operandsFit, Instr.operands, Instr.portB, Pattern.zeros]

end Sys2Proof
end

