-- ==== Sys2Proof/Laws/State.lean ====
section
/-! SUPPORT. Laws/State.lean: one lemma per field per update of the state, so that no proof unfolds a record update. -/
namespace Sys2Proof.Machine

@[simp] theorem State.deliver_cfg (s : State) (p : Pattern) : (s.deliver p).cfg = s.cfg := rfl
@[simp] theorem State.deliver_pending (s : State) (p : Pattern) : (s.deliver p).pending = s.pending := rfl
@[simp] theorem State.deliver_op (s : State) (p : Pattern) : (s.deliver p).op = s.op := rfl
@[simp] theorem State.deliver_a (s : State) (p : Pattern) : (s.deliver p).a = s.a := rfl
@[simp] theorem State.deliver_b (s : State) (p : Pattern) : (s.deliver p).b = s.b := rfl
@[simp] theorem State.deliver_y (s : State) (p : Pattern) : (s.deliver p).y = p := rfl
@[simp] theorem State.deliver_ok (s : State) (p : Pattern) : (s.deliver p).ok = true := rfl
@[simp] theorem State.deliver_ovf (s : State) (p : Pattern) : (s.deliver p).ovf = false := rfl
@[simp] theorem State.deliver_dbz (s : State) (p : Pattern) : (s.deliver p).dbz = false := rfl
@[simp] theorem State.deliver_draws (s : State) (p : Pattern) : (s.deliver p).draws = s.draws := rfl

@[simp] theorem State.raise_cfg (s : State) (x z : Bool) : (s.raise x z).cfg = s.cfg := rfl
@[simp] theorem State.raise_pending (s : State) (x z : Bool) : (s.raise x z).pending = s.pending := rfl
@[simp] theorem State.raise_op (s : State) (x z : Bool) : (s.raise x z).op = s.op := rfl
@[simp] theorem State.raise_a (s : State) (x z : Bool) : (s.raise x z).a = s.a := rfl
@[simp] theorem State.raise_b (s : State) (x z : Bool) : (s.raise x z).b = s.b := rfl
@[simp] theorem State.raise_y (s : State) (x z : Bool) : (s.raise x z).y = ⟨s.cfg.W, Config.freeY s.draws s.cfg.W⟩ := rfl
@[simp] theorem State.raise_ok (s : State) (x z : Bool) : (s.raise x z).ok = false := rfl
@[simp] theorem State.raise_ovf (s : State) (x z : Bool) : (s.raise x z).ovf = x := rfl
@[simp] theorem State.raise_dbz (s : State) (x z : Bool) : (s.raise x z).dbz = z := rfl
@[simp] theorem State.raise_draws (s : State) (x z : Bool) : (s.raise x z).draws = s.draws + 1 := rfl

@[simp] theorem State.present_cfg (s : State) (c : Command) (rest : List Command) : (s.present c rest).cfg = s.cfg := rfl
@[simp] theorem State.present_pending (s : State) (c : Command) (rest : List Command) : (s.present c rest).pending = rest := rfl
@[simp] theorem State.present_op (s : State) (c : Command) (rest : List Command) : (s.present c rest).op = c.op := rfl
@[simp] theorem State.present_a (s : State) (c : Command) (rest : List Command) : (s.present c rest).a = c.a := rfl
@[simp] theorem State.present_b (s : State) (c : Command) (rest : List Command) : (s.present c rest).b = c.b := rfl
@[simp] theorem State.present_y (s : State) (c : Command) (rest : List Command) : (s.present c rest).y = s.y := rfl
@[simp] theorem State.present_ok (s : State) (c : Command) (rest : List Command) : (s.present c rest).ok = s.ok := rfl
@[simp] theorem State.present_ovf (s : State) (c : Command) (rest : List Command) : (s.present c rest).ovf = s.ovf := rfl
@[simp] theorem State.present_dbz (s : State) (c : Command) (rest : List Command) : (s.present c rest).dbz = s.dbz := rfl
@[simp] theorem State.present_draws (s : State) (c : Command) (rest : List Command) : (s.present c rest).draws = s.draws := rfl

@[simp] theorem State.issue_cfg (s : State) (c : Command) : (s.issue c).cfg = s.cfg := rfl
@[simp] theorem State.issue_pending (s : State) (c : Command) : (s.issue c).pending = s.pending ++ [c] := rfl
@[simp] theorem State.issue_op (s : State) (c : Command) : (s.issue c).op = s.op := rfl
@[simp] theorem State.issue_a (s : State) (c : Command) : (s.issue c).a = s.a := rfl
@[simp] theorem State.issue_b (s : State) (c : Command) : (s.issue c).b = s.b := rfl
@[simp] theorem State.issue_y (s : State) (c : Command) : (s.issue c).y = s.y := rfl
@[simp] theorem State.issue_ok (s : State) (c : Command) : (s.issue c).ok = s.ok := rfl
@[simp] theorem State.issue_ovf (s : State) (c : Command) : (s.issue c).ovf = s.ovf := rfl
@[simp] theorem State.issue_dbz (s : State) (c : Command) : (s.issue c).dbz = s.dbz := rfl
@[simp] theorem State.issue_draws (s : State) (c : Command) : (s.issue c).draws = s.draws := rfl

@[simp] theorem State.powerUp_cfg (c : Config) : (State.powerUp c).cfg = c := rfl
@[simp] theorem State.powerUp_pending (c : Config) : (State.powerUp c).pending = [] := rfl
@[simp] theorem State.powerUp_op (c : Config) : (State.powerUp c).op = 0#6 := rfl
@[simp] theorem State.powerUp_a (c : Config) : (State.powerUp c).a = .zeros c.W := rfl
@[simp] theorem State.powerUp_b (c : Config) : (State.powerUp c).b = .zeros c.W := rfl
@[simp] theorem State.powerUp_y (c : Config) : (State.powerUp c).y = .zeros c.W := rfl
@[simp] theorem State.powerUp_ok (c : Config) : (State.powerUp c).ok = true := rfl
@[simp] theorem State.powerUp_ovf (c : Config) : (State.powerUp c).ovf = false := rfl
@[simp] theorem State.powerUp_dbz (c : Config) : (State.powerUp c).dbz = false := rfl
@[simp] theorem State.powerUp_draws (c : Config) : (State.powerUp c).draws = 0 := rfl

@[simp] theorem State.drive_value (s : State) (p : Pattern) : s.drive (.value p) = s.deliver p := rfl
@[simp] theorem State.drive_overflow (s : State) : s.drive .overflow = s.raise true false := rfl
@[simp] theorem State.drive_divideByZero (s : State) : s.drive .divideByZero = s.raise false true := rfl

@[simp] theorem State.drive_cfg (s : State) (r : Answer) : (s.drive r).cfg = s.cfg := by cases r <;> rfl
@[simp] theorem State.drive_pending (s : State) (r : Answer) : (s.drive r).pending = s.pending := by cases r <;> rfl
@[simp] theorem State.drive_op (s : State) (r : Answer) : (s.drive r).op = s.op := by cases r <;> rfl
@[simp] theorem State.drive_a (s : State) (r : Answer) : (s.drive r).a = s.a := by cases r <;> rfl
@[simp] theorem State.drive_b (s : State) (r : Answer) : (s.drive r).b = s.b := by cases r <;> rfl
@[simp] theorem State.drive_ok (s : State) (r : Answer) : (s.drive r).ok = r.ok := by cases r <;> rfl
@[simp] theorem State.drive_ovf (s : State) (r : Answer) : (s.drive r).ovf = r.ovf := by cases r <;> rfl
@[simp] theorem State.drive_dbz (s : State) (r : Answer) : (s.drive r).dbz = r.dbz := by cases r <;> rfl

/-- The outcome driven on the wires is the outcome read back from them. -/
@[simp] theorem State.drive_answer (s : State) (r : Answer) : (s.drive r).answer = some r := by cases r <;> rfl

/-- A failure leaves a free value on `y`; a result leaves the result. -/
theorem State.drive_y (s : State) (r : Answer) :
    (s.drive r).y = match r with
      | .value p => p
      | .overflow => ⟨s.cfg.W, Config.freeY s.draws s.cfg.W⟩
      | .divideByZero => ⟨s.cfg.W, Config.freeY s.draws s.cfg.W⟩ := by cases r <;> rfl

/-- A free value is drawn exactly on a failure. -/
theorem State.drive_draws (s : State) (r : Answer) :
    (s.drive r).draws = if r.ok then s.draws else s.draws + 1 := by cases r <;> rfl

end Sys2Proof.Machine
end

