-- ==== Sys2Proof/Laws/Exec.lean ====
section
/-! SUPPORT. Laws/Exec.lean: what each shape of transaction can do, and what every operation can do: it is refused for an
illegal parameter set or an operand of the wrong width, and otherwise drives the outcome of the pure function. -/
namespace Sys2Proof.Machine

theorem transactUnary_next {s : State} {a : Pattern} (r : Answer) (hl : s.cfg.IntegerLegal) (ha : a.width = s.cfg.W) :
    transactUnary s a r = .next (s.drive r) := by
  rw [transactUnary, if_pos hl, if_pos ha]

theorem transactBinary_next {s : State} {a b : Pattern} (r : Answer) (hl : s.cfg.IntegerLegal)
    (ha : a.width = s.cfg.W) (hb : b.width = s.cfg.W) : transactBinary s a b r = .next (s.drive r) := by
  rw [transactBinary, if_pos hl, if_pos ⟨ha, hb⟩]

theorem transactLayout_next {s : State} (p : Pattern) (hl : s.cfg.LayoutLegal) :
    transactLayout s p = .next (s.deliver p) := if_pos hl

/-- Everything an operation can do, in the order it is tested: refused for the parameters, refused for an operand's
width, or the outcome of the pure function driven on the outputs. -/
theorem exec_eq (i : Instr) (s : State) :
    exec i s = if i.unitLegal s.cfg then
        (if i.operandsFit s.cfg.W then .next (s.drive (outcome s.cfg i)) else .refused .portWidth)
      else .refused .illegalParameters := by
  cases i <;>
    simp only [exec, Instr.unitLegal, Instr.operandsFit, Instr.operands, Instr.isLayout, outcome, execAdd, execSub, execAddu,
      execSubu, execNeg, execAbs, execMul, execDiv, execRem, execDive, execReme, transactBinary, transactUnary,
      execFcZero, execFcNegZero, execFcOne, execFcNegOne, execFcMinPositive, execFcMaxNegative, execFcMax, execFcMin,
      execFcMinPositiveSubnormal, execFcMaxNegativeSubnormal, execFcMaxSubnormal, execFcMinSubnormal, execFcInfinity,
      execFcNegInfinity, execFcNan, execFcNegNan, execFcRadix, execFcMantissaDigits, execFcExpBias, execFcMinExp,
      execFcMaxExp, transactLayout, List.all_cons, List.all_nil, Bool.and_true, Bool.and_eq_true, beq_iff_eq, Bool.false_eq_true,
      if_false, if_true, decide_eq_true_eq, State.drive_value]

/-- An operation that the instance can be given drives its outcome. -/
theorem exec_of_wellFormed {i : Instr} {s : State} (h : i.wellFormed s.cfg = true) :
    exec i s = .next (s.drive (outcome s.cfg i)) := by
  obtain ⟨hu, ho⟩ := Bool.and_eq_true_iff.mp h
  rw [exec_eq, if_pos hu, if_pos ho]

/-- Parameters outside the legal ranges of the unit refuse the operation (R143). -/
theorem exec_illegal {i : Instr} {s : State} (h : i.unitLegal s.cfg = false) : exec i s = .refused .illegalParameters := by
  rw [exec_eq, if_neg (by simp [h])]

/-- An operand of another width refuses the operation (R33). -/
theorem exec_unfit {i : Instr} {s : State} (h : i.unitLegal s.cfg = true) (h' : i.operandsFit s.cfg.W = false) :
    exec i s = .refused .portWidth := by
  rw [exec_eq, if_pos h, if_neg (by simp [h'])]

/-- If an operation answers a next state, the instance could be given it and its outcome was driven. -/
theorem exec_next {i : Instr} {s t : State} (h : exec i s = .next t) :
    i.wellFormed s.cfg = true ∧ t = s.drive (outcome s.cfg i) := by
  rw [exec_eq] at h
  split at h
  · split at h
    · rename_i hu ho
      exact ⟨Bool.and_eq_true_iff.mpr ⟨hu, ho⟩, by injection h with h; exact h.symm⟩
    · cases h
  · cases h

/-- The outcome of the layout builder is always a value of `W` bits (R88, R106). -/
theorem outcome_layout {i : Instr} (h : i.isLayout = true) (c : Config) : ∃ p, outcome c i = .value p ∧ p.width = c.W := by
  cases i <;> first | exact ⟨_, rfl, rfl⟩ | simp [Instr.isLayout] at h

end Sys2Proof.Machine
end

