-- ==== Sys2Proof/Laws/Operands.lean ====
section
/-! SUPPORT. Laws/Operands.lean: what the readings of a pattern and the patterns of a number say: the bijection of
spec/00_scope.md R9, the sign bit, the range, and the two detectors of Machine/Flags.lean. -/
namespace Sys2Proof
open Sys2Proof.Machine

/-- Patterns of one width with one unsigned value are one pattern. -/
theorem Pattern.ext_uval {p q : Pattern} (hw : p.width = q.width) (hv : p.uval = q.uval) : p = q := by
  obtain ⟨w, x⟩ := p
  obtain ⟨v, z⟩ := q
  obtain rfl : w = v := hw
  rw [BitVec.eq_of_toNat_eq (show x.toNat = z.toNat from hv)]

theorem Pattern.uval_lt (p : Pattern) : p.uval < 2 ^ p.width := p.bits.isLt

@[simp] theorem Pattern.zeros_width (w : Nat) : (Pattern.zeros w).width = w := rfl
@[simp] theorem Pattern.zeros_uval (w : Nat) : (Pattern.zeros w).uval = 0 := BitVec.toNat_zero
@[simp] theorem upat_width (w v : Nat) : (upat w v).width = w := rfl
theorem upat_uval (w v : Nat) : (upat w v).uval = v % 2 ^ w := BitVec.toNat_ofNat v w

theorem upat_uval_of_lt {w v : Nat} (h : v < 2 ^ w) : (upat w v).uval = v := by
  rw [upat_uval, Nat.mod_eq_of_lt h]

/-- A pattern is the pattern of its unsigned value. -/
theorem upat_of_uval {p : Pattern} {w : Nat} (h : p.width = w) : upat w p.uval = p := by
  subst h
  exact Pattern.ext_uval rfl (upat_uval_of_lt p.uval_lt)

end Sys2Proof

namespace Sys2Proof.Machine

@[simp] theorem pat_width (w : Nat) (v : Int) : (pat w v).width = w := rfl

/-- `uval(pat(v)) = v mod 2^W` (R9). -/
theorem pat_uval (w : Nat) (v : Int) : ((pat w v).uval : Int) = v % 2 ^ w := by
  simp only [pat, Pattern.uval, BitVec.toNat_ofInt, Int.toNat_of_nonneg (Int.emod_nonneg v (by positivity : ((2 ^ w : ℕ) : ℤ) ≠ 0))]
  push_cast
  rfl

/-- The sign bit is the top half of the unsigned range. -/
theorem signBit_eq (p : Pattern) : signBit p = decide (2 ^ (p.width - 1) ≤ p.uval) := by
  have := BitVec.msb_eq_decide p.bits
  rw [BitVec.msb_eq_getLsbD_last] at this
  exact this

/-- The signed reading of R9 is the two's-complement integer of the bits. -/
theorem sval_eq_toInt (p : Pattern) : sval p = p.bits.toInt := by
  obtain ⟨w, x⟩ := p
  have hm := BitVec.msb_eq_getLsbD_last x
  rw [BitVec.toInt_eq_msb_cond, hm]
  cases h : x.getLsbD (w - 1) <;> simp [sval, signBit, Pattern.uval, h]

theorem sval_of_sign_clear {p : Pattern} (h : signBit p = false) : sval p = (p.uval : Int) := by simp [sval, h]

theorem sval_of_sign_set {p : Pattern} (h : signBit p = true) : sval p = (p.uval : Int) - 2 ^ p.width := by
  simp [sval, h]

/-- The sign bit is 1 exactly for a negative value (R14). -/
theorem signBit_iff_neg (p : Pattern) : signBit p = true ↔ sval p < 0 := by
  have h := p.uval_lt
  have h' : (p.uval : Int) < 2 ^ p.width := by exact_mod_cast h
  cases hs : signBit p
  · simp [sval_of_sign_clear hs]
  · simpa [sval_of_sign_set hs] using h'

theorem two_pow_pred {w : Nat} (h : 0 < w) : (2 : Int) ^ w = 2 * 2 ^ (w - 1) := by
  obtain ⟨k, rfl⟩ : ∃ k, w = k + 1 := ⟨w - 1, by omega⟩
  simp [pow_succ, mul_comm]

/-- Every pattern's signed value lies in the signed range of its width. -/
theorem sval_range (p : Pattern) (h : 0 < p.width) :
    -(2 : Int) ^ (p.width - 1) ≤ sval p ∧ sval p < 2 ^ (p.width - 1) := by
  have hlt : (p.uval : Int) < 2 ^ p.width := by exact_mod_cast p.uval_lt
  have h2 := two_pow_pred h
  have hs := signBit_eq p
  cases hb : signBit p
  · rw [hb] at hs
    have : ¬ 2 ^ (p.width - 1) ≤ p.uval := by simpa using hs.symm
    have : (p.uval : Int) < 2 ^ (p.width - 1) := by exact_mod_cast not_le.mp this
    rw [sval_of_sign_clear hb]
    exact ⟨by have : (0:Int) < 2 ^ (p.width - 1) := by positivity
              omega, this⟩
  · rw [hb] at hs
    have : 2 ^ (p.width - 1) ≤ p.uval := by simpa using hs.symm
    have : (2 : Int) ^ (p.width - 1) ≤ p.uval := by exact_mod_cast this
    rw [sval_of_sign_set hb]
    omega

/-- The width of a legal instance is positive. -/
theorem W_pos {c : Config} (h : c.IntegerLegal) : 0 < c.W := Nat.mul_pos h.2 h.1

/-- Every `W`-bit pattern is representable (R14). -/
theorem representable_sval {c : Config} (h : c.IntegerLegal) {p : Pattern} (hp : p.width = c.W) :
    Representable c (sval p) := by
  have := sval_range p (hp ▸ W_pos h)
  rw [hp] at this
  simp only [Representable, smin, smax]
  omega

/-- `sval(pat(v)) = v` for a representable `v` (R9). -/
theorem sval_pat {c : Config} (h : c.IntegerLegal) {v : Int} (hv : Representable c v) : sval (pat c.W v) = v := by
  rw [sval_eq_toInt]
  refine BitVec.toInt_ofInt_eq_self (W_pos h) hv.1 ?_
  have := hv.2
  simp only [smax] at this
  omega

/-- `pat(sval(p)) = p` (R9). -/
theorem pat_sval {p : Pattern} {w : Nat} (h : p.width = w) : pat w (sval p) = p := by
  subst h
  rw [sval_eq_toInt, pat, BitVec.ofInt_toInt]

/-- The signed value determines a pattern of a given width. -/
theorem Pattern_ext_sval {p q : Pattern} (hw : p.width = q.width) (hv : sval p = sval q) : p = q := by
  rw [← pat_sval (rfl : p.width = p.width), ← pat_sval (rfl : q.width = q.width), hv, hw]

theorem sval_zeros (w : Nat) : sval (.zeros w) = 0 := by
  simp [sval_eq_toInt, Pattern.zeros]

/-- `checked` delivers exactly the representable results. -/
theorem checked_of_representable {c : Config} {r : Int} (h : Representable c r) : checked c r = .value (pat c.W r) :=
  if_pos h

theorem checked_of_not_representable {c : Config} {r : Int} (h : ¬ Representable c r) : checked c r = .overflow :=
  if_neg h

theorem checked_eq_overflow {c : Config} {r : Int} : checked c r = .overflow ↔ ¬ Representable c r := by
  unfold checked
  split <;> simp_all

theorem checked_ne_divideByZero {c : Config} {r : Int} : checked c r ≠ .divideByZero := by
  unfold checked
  split <;> simp

/-- What the guard of the division unit lets through. -/
theorem divisionGuard_zero {c : Config} {a b : Pattern} {r : Answer} (h : sval b = 0) :
    divisionGuard c a b r = .divideByZero := if_pos h

theorem divisionGuard_overflow {c : Config} {a b : Pattern} {r : Answer} (ha : sval a = smin c) (hb : sval b = -1) :
    divisionGuard c a b r = .overflow := by
  simp [divisionGuard, ha, hb]

theorem divisionGuard_pass {c : Config} {a b : Pattern} {r : Answer} (h0 : sval b ≠ 0)
    (h1 : ¬ (sval a = smin c ∧ sval b = -1)) : divisionGuard c a b r = r := by
  rw [divisionGuard, if_neg h0, if_neg h1]

end Sys2Proof.Machine
end

