-- ==== Sys2Proof/Laws/PerInstr.lean ====
section
/-! SUPPORT. Laws/PerInstr.lean: the family EncodedOp: what is said of every instruction as syntax, one lemma per
constructor: the op code and the ports the encoder writes select that very instruction (spec/30_encoding.md R42 to R44,
R47). -/
namespace Sys2Proof.Laws.EncodedOp

def Statement (i : Instr) : Prop := ∀ w : Nat, decodeOp i.opCode (i.portA w) (i.portB w) = some i

theorem add (a b : Pattern) : Statement (.add a b) := fun _ => rfl
theorem sub (a b : Pattern) : Statement (.sub a b) := fun _ => rfl
theorem addu (a b : Pattern) : Statement (.addu a b) := fun _ => rfl
theorem subu (a b : Pattern) : Statement (.subu a b) := fun _ => rfl
theorem neg (a : Pattern) : Statement (.neg a) := fun _ => rfl
theorem abs (a : Pattern) : Statement (.abs a) := fun _ => rfl
theorem mul (a b : Pattern) : Statement (.mul a b) := fun _ => rfl
theorem div (a b : Pattern) : Statement (.div a b) := fun _ => rfl
theorem rem (a b : Pattern) : Statement (.rem a b) := fun _ => rfl
theorem dive (a b : Pattern) : Statement (.dive a b) := fun _ => rfl
theorem reme (a b : Pattern) : Statement (.reme a b) := fun _ => rfl
theorem fcZero : Statement .fcZero := fun _ => rfl
theorem fcNegZero : Statement .fcNegZero := fun _ => rfl
theorem fcOne : Statement .fcOne := fun _ => rfl
theorem fcNegOne : Statement .fcNegOne := fun _ => rfl
theorem fcMinPositive : Statement .fcMinPositive := fun _ => rfl
theorem fcMaxNegative : Statement .fcMaxNegative := fun _ => rfl
theorem fcMax : Statement .fcMax := fun _ => rfl
theorem fcMin : Statement .fcMin := fun _ => rfl
theorem fcMinPositiveSubnormal : Statement .fcMinPositiveSubnormal := fun _ => rfl
theorem fcMaxNegativeSubnormal : Statement .fcMaxNegativeSubnormal := fun _ => rfl
theorem fcMaxSubnormal : Statement .fcMaxSubnormal := fun _ => rfl
theorem fcMinSubnormal : Statement .fcMinSubnormal := fun _ => rfl
theorem fcInfinity : Statement .fcInfinity := fun _ => rfl
theorem fcNegInfinity : Statement .fcNegInfinity := fun _ => rfl
theorem fcNan : Statement .fcNan := fun _ => rfl
theorem fcNegNan : Statement .fcNegNan := fun _ => rfl
theorem fcRadix : Statement .fcRadix := fun _ => rfl
theorem fcMantissaDigits : Statement .fcMantissaDigits := fun _ => rfl
theorem fcExpBias : Statement .fcExpBias := fun _ => rfl
theorem fcMinExp : Statement .fcMinExp := fun _ => rfl
theorem fcMaxExp : Statement .fcMaxExp := fun _ => rfl

end Sys2Proof.Laws.EncodedOp
end

