-- ==== Sys2Proof/Laws/Step.lean ====
section
/-! SUPPORT. Laws/Step.lean: everything a step can do. -/
namespace Sys2Proof.Machine

/-- If a step answers a next state, the host had a command, it decoded to an instruction the instance can be given, and
the outcome of that instruction was driven with the command on the input ports. -/
theorem step_next {s t : State} (h : step s = .next t) :
    ∃ c rest i, s.pending = c :: rest ∧ decode s.cfg.W c = .instr i ∧ i.wellFormed s.cfg = true
      ∧ t = (s.present c rest).drive (outcome s.cfg i) := by
  unfold step at h
  split at h
  · cases h
  · rename_i c rest hp
    unfold transact at h
    split at h
    · rename_i i hd
      obtain ⟨hw, ht⟩ := exec_next h
      exact ⟨c, rest, i, hp, hd, hw, ht⟩
    · cases h

end Sys2Proof.Machine
end

