-- ==== Sys2Proof/Machine/Listing.lean ====
section
/-! DEFINITION. Machine/Listing.lean: how the spec writes a command and an outcome in a listing (spec/30_encoding.md R40,
R52). -/
namespace Sys2Proof.Machine

/-- One hexadecimal digit, capitals as the spec writes them. -/
def hexDigit (n : Nat) : String :=
  (["0", "1", "2", "3", "4", "5", "6", "7", "8", "9", "A", "B", "C", "D", "E", "F"])[n % 16]?.getD "0"

/-- The low `k` hexadecimal digits of a number, most significant first. -/
def hexDigits : Nat → Nat → String
  | 0, _ => ""
  | k + 1, n => hexDigits k (n / 16) ++ hexDigit n

/-- `0x..` with as many digits as `bits` bits need (R8). -/
def hexOf (bits n : Nat) : String := "0x" ++ hexDigits ((bits + 3) / 4) n

/-- A pattern in hexadecimal (R52). -/
def hexPattern (p : Pattern) : String := hexOf p.width p.uval

/-- A command word in hexadecimal: six digits at `W = 8` (R40). -/
def hexCommand (w : Nat) (i : Instr) : String := hexOf (2 * w + 6) (encodeWord w i)

/-- A command: the mnemonic, then the operands the operation uses (R52). -/
def assembly (i : Instr) : String :=
  match i.operands with
  | [] => i.mnemonic
  | p :: ps => ps.foldl (fun t q => t ++ ", " ++ hexPattern q) (i.mnemonic ++ " " ++ hexPattern p)

/-- An outcome: `-> y=0x.. ok`, `-> Overflow` or `-> DivideByZero` (R52). -/
def Answer.listing : Answer → String
  | .value p => "-> y=" ++ hexPattern p ++ " ok"
  | .overflow => "-> Overflow"
  | .divideByZero => "-> DivideByZero"

end Sys2Proof.Machine
end

