-- ==== Sys2Proof/Tests/Slice0.lean ====
section
/-! SUPPORT. Tests/Slice0.lean: the model's own tests. Every expected result is copied from spec/: the vectors and tables
of 95_test_vectors.md, the examples of the rules, the op-code map. The witnesses at the end meet the hypotheses of the
statements of Certificates/Slice0/Obligations.lean. -/
namespace Sys2Proof.Tests
open Sys2Proof.Machine

/-! ## The instances of the spec's vectors -/

/-- One digit of eight bits, with the 8-bit layout of 95_test_vectors.md section 4.5. -/
def w8 : Config := { DIGIT_BITS := 8, N := 1, MB := 3, NAN_PAYLOAD := 4 }

/-- Three digits of one bit (95_test_vectors.md section 3): no layout is legal at this width. -/
def w3 : Config := { DIGIT_BITS := 1, N := 3, MB := 0, NAN_PAYLOAD := 0 }

/-- An instance of one digit with a layout. -/
def layoutAt (w mb payload : Nat) : Config := { DIGIT_BITS := w, N := 1, MB := mb, NAN_PAYLOAD := payload }

/-- An outcome as the tables write it. -/
inductive Cell where
  | V
  | Z
  | Y (y : Nat)
  | I (v : Int)
  | refused
deriving DecidableEq, Repr
open Cell

/-- What one step shows for a command: the result pattern as an unsigned number. -/
def shownCell (c : Config) (cmd : Command) : Cell :=
  match step ((State.powerUp c).issue cmd) with
  | .next t =>
    match t.answer with
    | some (.value y) => Y y.uval
    | some .overflow => V
    | some .divideByZero => Z
    | none => refused
  | .fault _ => refused
  | .refused _ => refused

/-- What one step shows for each of a list of command words. -/
def shownAt (c : Config) (words : List Nat) : List Cell :=
  words.map fun n => match Command.ofWord c.W n with
    | some cmd => shownCell c cmd
    | none => refused

/-- A pattern of three bits read signed, by the table of 95_test_vectors.md section 3: value mod 8. -/
def signedOf3 (y : Nat) : Int := if y < 4 then y else (y : Int) - 8

/-- A cell of the tables at `W = 3`: operands as unsigned pattern numbers, result signed. -/
def cell3 (op : OpCode) (a b : Nat) : Cell :=
  match shownCell w3 ⟨op, ⟨3, BitVec.ofNat 3 a⟩, ⟨3, BitVec.ofNat 3 b⟩⟩ with
  | .Y y => I (signedOf3 y)
  | c => c

/-- The patterns of −4 to 3 in that order. -/
def signedAxis : List Nat := [4, 5, 6, 7, 0, 1, 2, 3]

/-- The patterns 0 to 7. -/
def unsignedAxis : List Nat := [0, 1, 2, 3, 4, 5, 6, 7]

/-- A table of section 3: rows are `a` from −4 to 3, columns are `b`. -/
def table3 (op : OpCode) (columns : List Nat) : List (List Cell) :=
  signedAxis.map fun a => columns.map fun b => cell3 op a b

/-- The op codes of the layout builder in order (R43, R44). -/
def layoutOps : List OpCode := (List.range 21).map fun k => BitVec.ofNat 6 (0x20 + k)

/-- What one step shows for a constant, operand ports at all ones and zero. -/
def shownConstant (c : Config) (op : OpCode) : Option Nat :=
  match shownCell c ⟨op, ⟨c.W, BitVec.allOnes c.W⟩, .zeros c.W⟩ with
  | .Y y => some y
  | _ => none

/-! ## Decoding: words written out from the spec's encodings -/

theorem test_decode_add : decodeWord 8 0x007F01 = .instr (.add ⟨8, 0x7F#8⟩ ⟨8, 0x01#8⟩) := by decide
theorem test_decode_neg_ignores_b : decodeWord 8 0x047FAB = .instr (.neg ⟨8, 0x7F#8⟩) := by decide
theorem test_decode_mul : decodeWord 8 0x0610F8 = .instr (.mul ⟨8, 0x10#8⟩ ⟨8, 0xF8#8⟩) := by decide
theorem test_decode_div : decodeWord 8 0x0880FF = .instr (.div ⟨8, 0x80#8⟩ ⟨8, 0xFF#8⟩) := by decide
theorem test_decode_div_w3 : decodeWord 3 0x227 = .instr (.div ⟨3, 4#3⟩ ⟨3, 7#3⟩) := by decide
theorem test_decode_subu_w16 :
    decodeWord 16 0x0300008001 = .instr (.subu ⟨16, 0x0000#16⟩ ⟨16, 0x8001#16⟩) := by decide
theorem test_decode_constant_w32 : decodeWord 32 0x270000000000000000 = .instr .fcMin := by decide
theorem test_decode_scalar_w64 : decodeWord 64 0x3400000000000000000000000000000000 = .instr .fcMaxExp := by decide
theorem test_decode_reserved : decodeWord 8 0x070000 = .rejected (.reservedOpCode 0x07#6) := by decide
theorem test_decode_too_long : decodeWord 8 0x400000 = .rejected .wordTooLong := by decide
theorem test_decode_port_width : decode 8 ⟨0x00#6, ⟨4, 0#4⟩, ⟨8, 0#8⟩⟩ = .rejected .portWidth := by decide
theorem test_encode_sub : encodeWord 8 (.sub ⟨8, 0x80#8⟩ ⟨8, 0x01#8⟩) = 0x018001 := by decide
theorem test_encode_abs : encodeWord 8 (.abs ⟨8, 0x81#8⟩) = 0x058100 := by decide
theorem test_encode_reme_w16 : encodeWord 16 (.reme ⟨16, 0x8000#16⟩ ⟨16, 0x0003#16⟩) = 0x0B80000003 := by decide

/-- Every row of opcode_table.json, by its `match` value: the mnemonic the decoder reads. -/
theorem test_table_rows :
    ((List.range 64).map fun k => (decodeTableWord 8 k).map Instr.mnemonic)
    = ["ADD", "SUB", "ADDU", "SUBU", "NEG", "ABS", "MUL"].map some ++ [none]
      ++ ["DIV", "REM", "DIVE", "REME"].map some ++ List.replicate 20 none
      ++ ["FC_ZERO", "FC_NEG_ZERO", "FC_ONE", "FC_NEG_ONE", "FC_MIN_POSITIVE", "FC_MAX_NEGATIVE", "FC_MAX", "FC_MIN"].map some
      ++ ["FC_MIN_POSITIVE_SUBNORMAL", "FC_MAX_NEGATIVE_SUBNORMAL", "FC_MAX_SUBNORMAL", "FC_MIN_SUBNORMAL"].map some
      ++ ["FC_INFINITY", "FC_NEG_INFINITY", "FC_NAN", "FC_NEG_NAN"].map some
      ++ ["FC_RADIX", "FC_MANTISSA_DIGITS", "FC_EXP_BIAS", "FC_MIN_EXP", "FC_MAX_EXP"].map some
      ++ List.replicate 11 none := by decide +kernel

/-- The listings of R40 and R52. -/
theorem test_listing_command : hexCommand 8 (.add ⟨8, 0x7F#8⟩ ⟨8, 0x01#8⟩) = "0x007F01" := by decide
theorem test_listing_assembly : assembly (.div ⟨8, 0x80#8⟩ ⟨8, 0xFF#8⟩) = "DIV 0x80, 0xFF" := by decide
theorem test_listing_constant : assembly .fcNan = "FC_NAN" := by decide
theorem test_listing_result : (Answer.value ⟨8, 0x7F#8⟩).listing = "-> y=0x7F ok" := by decide

/-! ## WellFormed refuses each ill-formed term -/

theorem test_wf_good : (Instr.add ⟨8, 1#8⟩ ⟨8, 2#8⟩).wellFormed w8 = true := by decide
theorem test_wf_operand_a_narrow : (Instr.add ⟨7, 1#7⟩ ⟨8, 2#8⟩).wellFormed w8 = false := by decide
theorem test_wf_operand_b_wide : (Instr.div ⟨8, 1#8⟩ ⟨16, 2#16⟩).wellFormed w8 = false := by decide
theorem test_wf_unary_operand : (Instr.neg ⟨9, 1#9⟩).wellFormed w8 = false := by decide
theorem test_wf_no_digits : (Instr.neg ⟨0, 0#0⟩).wellFormed { w8 with N := 0 } = false := by decide
theorem test_wf_no_digit_bits : (Instr.neg ⟨0, 0#0⟩).wellFormed { w8 with DIGIT_BITS := 0 } = false := by decide
theorem test_wf_layout_good : Instr.fcOne.wellFormed w8 = true := by decide
theorem test_wf_no_mantissa : Instr.fcOne.wellFormed { w8 with MB := 0, NAN_PAYLOAD := 0 } = false := by decide
theorem test_wf_short_exponent : Instr.fcOne.wellFormed { w8 with MB := 6 } = false := by decide
theorem test_wf_payload_zero : Instr.fcOne.wellFormed { w8 with NAN_PAYLOAD := 0 } = false := by decide
theorem test_wf_payload_long : Instr.fcOne.wellFormed { w8 with NAN_PAYLOAD := 8 } = false := by decide
theorem test_wf_integer_without_layout : (Instr.neg ⟨3, 1#3⟩).wellFormed w3 = true := by decide

/-! ## Stops -/

theorem test_step_reserved : step ((State.powerUp w8).withFetchWord 8 0x3F) = .refused (.reservedOpCode 0x3F#6) := by rfl
theorem test_step_nothing_presented : step State.reset = .refused .noCommand := by rfl
theorem test_layout_refused_without_layout :
    step ((State.powerUp w3).withFetchWord 8 0x20) = .refused .illegalParameters := by rfl

/-! ## The vectors of 95_test_vectors.md -/

/-- ADD at `W = 8`: every vector of 95_test_vectors.md section 2, from the command word to the outputs of one step. -/
theorem test_add_w8 :
    shownAt w8 [0x007F01, 0x007E01, 0x0080FF, 0x008000,
      0x00FF01, 0x004040, 0x003F40, 0x008080,
      0x00C0C0, 0x00C0BF, 0x000000, 0x007F80,
      0x00017F, 0x00649C]
    = [V, (Y 0x7F), V, (Y 0x80),
      (Y 0x00), V, (Y 0x7F), V,
      (Y 0x80), V, (Y 0x00), (Y 0xFF),
      V, (Y 0x00)] := by decide +kernel

/-- SUB at `W = 8`: every vector of 95_test_vectors.md section 2, from the command word to the outputs of one step. -/
theorem test_sub_w8 :
    shownAt w8 [0x018001, 0x018101, 0x017FFF, 0x017F00,
      0x010080, 0x01FF80, 0x01007F, 0x018080,
      0x017F7F, 0x01FE7F, 0x01FD7F, 0x017F80,
      0x01050A]
    = [V, (Y 0x80), V, (Y 0x7F),
      V, (Y 0x7F), (Y 0x81), (Y 0x00),
      (Y 0x00), V, V, V,
      (Y 0xFB)] := by decide +kernel

/-- ADDU at `W = 8`: every vector of 95_test_vectors.md section 2, from the command word to the outputs of one step. -/
theorem test_addu_w8 :
    shownAt w8 [0x0280FF, 0x0281FF, 0x02007F, 0x020080,
      0x02FF80, 0x027F00, 0x027F01, 0x028000,
      0x028080, 0x02F614]
    = [(Y 0x7F), V, (Y 0x7F), V,
      (Y 0x7F), (Y 0x7F), V, (Y 0x80),
      (Y 0x00), (Y 0x0A)] := by decide +kernel

/-- SUBU at `W = 8`: every vector of 95_test_vectors.md section 2, from the command word to the outputs of one step. -/
theorem test_subu_w8 :
    shownAt w8 [0x037FFF, 0x037EFF, 0x030080, 0x030081,
      0x038000, 0x038001, 0x037F7F, 0x030A14,
      0x03FF7F, 0x03FF80]
    = [(Y 0x80), V, (Y 0x80), V,
      (Y 0x80), V, (Y 0x00), (Y 0xF6),
      (Y 0x80), V] := by decide +kernel

/-- NEG at `W = 8`: every vector of 95_test_vectors.md section 2, from the command word to the outputs of one step. -/
theorem test_neg_w8 :
    shownAt w8 [0x048000, 0x048100, 0x047F00, 0x040000,
      0x040100, 0x04FF00, 0x046400]
    = [V, (Y 0x7F), (Y 0x81), (Y 0x00),
      (Y 0xFF), (Y 0x01), (Y 0x9C)] := by decide +kernel

/-- ABS at `W = 8`: every vector of 95_test_vectors.md section 2, from the command word to the outputs of one step. -/
theorem test_abs_w8 :
    shownAt w8 [0x058000, 0x058100, 0x05FF00, 0x050000,
      0x050500, 0x057F00]
    = [V, (Y 0x7F), (Y 0x01), (Y 0x00),
      (Y 0x05), (Y 0x7F)] := by decide +kernel

/-- MUL at `W = 8`: every vector of 95_test_vectors.md section 2, from the command word to the outputs of one step. -/
theorem test_mul_w8 :
    shownAt w8 [0x0680FF, 0x06FF80, 0x0681FF, 0x060B0B,
      0x060C0B, 0x061008, 0x0610F8, 0x0640FE,
      0x0641FE, 0x068000, 0x068001, 0x068002,
      0x068080, 0x067F7F, 0x067F01, 0x06F5F5,
      0x06F50B, 0x06F40B]
    = [V, V, (Y 0x7F), (Y 0x79),
      V, V, (Y 0x80), (Y 0x80),
      V, (Y 0x00), (Y 0x80), V,
      V, V, (Y 0x7F), (Y 0x79),
      (Y 0x87), V] := by decide +kernel

/-- DIV at `W = 8`: every vector of 95_test_vectors.md section 2, from the command word to the outputs of one step. -/
theorem test_div_w8 :
    shownAt w8 [0x080702, 0x08F902, 0x0807FE, 0x08F9FE,
      0x080603, 0x08FA03, 0x0806FD, 0x08FAFD,
      0x080005, 0x0800FB, 0x080507, 0x08FB07,
      0x0805F9, 0x08FBF9, 0x08807F, 0x088003,
      0x0880FD, 0x088002, 0x0880FE, 0x088001,
      0x088080, 0x087F80, 0x088180, 0x0864F9,
      0x089C07, 0x089CF9, 0x087FFF, 0x0881FF,
      0x087F01, 0x0880FF, 0x080500, 0x080000,
      0x088000]
    = [(Y 0x03), (Y 0xFD), (Y 0xFD), (Y 0x03),
      (Y 0x02), (Y 0xFE), (Y 0xFE), (Y 0x02),
      (Y 0x00), (Y 0x00), (Y 0x00), (Y 0x00),
      (Y 0x00), (Y 0x00), (Y 0xFF), (Y 0xD6),
      (Y 0x2A), (Y 0xC0), (Y 0x40), (Y 0x80),
      (Y 0x01), (Y 0x00), (Y 0x00), (Y 0xF2),
      (Y 0xF2), (Y 0x0E), (Y 0x81), (Y 0x7F),
      (Y 0x7F), V, Z, Z,
      Z] := by decide +kernel

/-- REM at `W = 8`: every vector of 95_test_vectors.md section 2, from the command word to the outputs of one step. -/
theorem test_rem_w8 :
    shownAt w8 [0x090702, 0x09F902, 0x0907FE, 0x09F9FE,
      0x090603, 0x09FA03, 0x0906FD, 0x09FAFD,
      0x090005, 0x0900FB, 0x090507, 0x09FB07,
      0x0905F9, 0x09FBF9, 0x09807F, 0x098003,
      0x0980FD, 0x098002, 0x0980FE, 0x098001,
      0x098080, 0x097F80, 0x098180, 0x0964F9,
      0x099C07, 0x099CF9, 0x097FFF, 0x0981FF,
      0x097F01, 0x0980FF, 0x090500, 0x090000,
      0x098000]
    = [(Y 0x01), (Y 0xFF), (Y 0x01), (Y 0xFF),
      (Y 0x00), (Y 0x00), (Y 0x00), (Y 0x00),
      (Y 0x00), (Y 0x00), (Y 0x05), (Y 0xFB),
      (Y 0x05), (Y 0xFB), (Y 0xFF), (Y 0xFE),
      (Y 0xFE), (Y 0x00), (Y 0x00), (Y 0x00),
      (Y 0x00), (Y 0x7F), (Y 0x81), (Y 0x02),
      (Y 0xFE), (Y 0xFE), (Y 0x00), (Y 0x00),
      (Y 0x00), V, Z, Z,
      Z] := by decide +kernel

/-- DIVE at `W = 8`: every vector of 95_test_vectors.md section 2, from the command word to the outputs of one step. -/
theorem test_dive_w8 :
    shownAt w8 [0x0A0702, 0x0AF902, 0x0A07FE, 0x0AF9FE,
      0x0A0603, 0x0AFA03, 0x0A06FD, 0x0AFAFD,
      0x0A0005, 0x0A00FB, 0x0A0507, 0x0AFB07,
      0x0A05F9, 0x0AFBF9, 0x0A807F, 0x0A8003,
      0x0A80FD, 0x0A8002, 0x0A80FE, 0x0A8001,
      0x0A8080, 0x0A7F80, 0x0A8180, 0x0A64F9,
      0x0A9C07, 0x0A9CF9, 0x0A7FFF, 0x0A81FF,
      0x0A7F01, 0x0A80FF, 0x0A0500, 0x0A0000,
      0x0A8000]
    = [(Y 0x03), (Y 0xFC), (Y 0xFD), (Y 0x04),
      (Y 0x02), (Y 0xFE), (Y 0xFE), (Y 0x02),
      (Y 0x00), (Y 0x00), (Y 0x00), (Y 0xFF),
      (Y 0x00), (Y 0x01), (Y 0xFE), (Y 0xD5),
      (Y 0x2B), (Y 0xC0), (Y 0x40), (Y 0x80),
      (Y 0x01), (Y 0x00), (Y 0x01), (Y 0xF2),
      (Y 0xF1), (Y 0x0F), (Y 0x81), (Y 0x7F),
      (Y 0x7F), V, Z, Z,
      Z] := by decide +kernel

/-- REME at `W = 8`: every vector of 95_test_vectors.md section 2, from the command word to the outputs of one step. -/
theorem test_reme_w8 :
    shownAt w8 [0x0B0702, 0x0BF902, 0x0B07FE, 0x0BF9FE,
      0x0B0603, 0x0BFA03, 0x0B06FD, 0x0BFAFD,
      0x0B0005, 0x0B00FB, 0x0B0507, 0x0BFB07,
      0x0B05F9, 0x0BFBF9, 0x0B807F, 0x0B8003,
      0x0B80FD, 0x0B8002, 0x0B80FE, 0x0B8001,
      0x0B8080, 0x0B7F80, 0x0B8180, 0x0B64F9,
      0x0B9C07, 0x0B9CF9, 0x0B7FFF, 0x0B81FF,
      0x0B7F01, 0x0B80FF, 0x0B0500, 0x0B0000,
      0x0B8000]
    = [(Y 0x01), (Y 0x01), (Y 0x01), (Y 0x01),
      (Y 0x00), (Y 0x00), (Y 0x00), (Y 0x00),
      (Y 0x00), (Y 0x00), (Y 0x05), (Y 0x02),
      (Y 0x05), (Y 0x02), (Y 0x7E), (Y 0x01),
      (Y 0x01), (Y 0x00), (Y 0x00), (Y 0x00),
      (Y 0x00), (Y 0x7F), (Y 0x01), (Y 0x02),
      (Y 0x05), (Y 0x05), (Y 0x00), (Y 0x00),
      (Y 0x00), V, Z, Z,
      Z] := by decide +kernel

/-- ADD at `W = 3`, every pair of operands (95_test_vectors.md section 3). -/
theorem test_add_w3 :
    table3 0x00#6 signedAxis
    = [[V, V, V, V,
       I (-4), I (-3), I (-2), I (-1)],
      [V, V, V, I (-4),
       I (-3), I (-2), I (-1), I (0)],
      [V, V, I (-4), I (-3),
       I (-2), I (-1), I (0), I (1)],
      [V, I (-4), I (-3), I (-2),
       I (-1), I (0), I (1), I (2)],
      [I (-4), I (-3), I (-2), I (-1),
       I (0), I (1), I (2), I (3)],
      [I (-3), I (-2), I (-1), I (0),
       I (1), I (2), I (3), V],
      [I (-2), I (-1), I (0), I (1),
       I (2), I (3), V, V],
      [I (-1), I (0), I (1), I (2),
       I (3), V, V, V]] := by decide +kernel

/-- SUB at `W = 3`, every pair of operands (95_test_vectors.md section 3). -/
theorem test_sub_w3 :
    table3 0x01#6 signedAxis
    = [[I (0), I (-1), I (-2), I (-3),
       I (-4), V, V, V],
      [I (1), I (0), I (-1), I (-2),
       I (-3), I (-4), V, V],
      [I (2), I (1), I (0), I (-1),
       I (-2), I (-3), I (-4), V],
      [I (3), I (2), I (1), I (0),
       I (-1), I (-2), I (-3), I (-4)],
      [V, I (3), I (2), I (1),
       I (0), I (-1), I (-2), I (-3)],
      [V, V, I (3), I (2),
       I (1), I (0), I (-1), I (-2)],
      [V, V, V, I (3),
       I (2), I (1), I (0), I (-1)],
      [V, V, V, V,
       I (3), I (2), I (1), I (0)]] := by decide +kernel

/-- MUL at `W = 3`, every pair of operands (95_test_vectors.md section 3). -/
theorem test_mul_w3 :
    table3 0x06#6 signedAxis
    = [[V, V, V, V,
       I (0), I (-4), V, V],
      [V, V, V, I (3),
       I (0), I (-3), V, V],
      [V, V, V, I (2),
       I (0), I (-2), I (-4), V],
      [V, I (3), I (2), I (1),
       I (0), I (-1), I (-2), I (-3)],
      [I (0), I (0), I (0), I (0),
       I (0), I (0), I (0), I (0)],
      [I (-4), I (-3), I (-2), I (-1),
       I (0), I (1), I (2), I (3)],
      [V, V, I (-4), I (-2),
       I (0), I (2), V, V],
      [V, V, V, I (-3),
       I (0), I (3), V, V]] := by decide +kernel

/-- DIV at `W = 3`, every pair of operands (95_test_vectors.md section 3). -/
theorem test_div_w3 :
    table3 0x08#6 signedAxis
    = [[I (1), I (1), I (2), V,
       Z, I (-4), I (-2), I (-1)],
      [I (0), I (1), I (1), I (3),
       Z, I (-3), I (-1), I (-1)],
      [I (0), I (0), I (1), I (2),
       Z, I (-2), I (-1), I (0)],
      [I (0), I (0), I (0), I (1),
       Z, I (-1), I (0), I (0)],
      [I (0), I (0), I (0), I (0),
       Z, I (0), I (0), I (0)],
      [I (0), I (0), I (0), I (-1),
       Z, I (1), I (0), I (0)],
      [I (0), I (0), I (-1), I (-2),
       Z, I (2), I (1), I (0)],
      [I (0), I (-1), I (-1), I (-3),
       Z, I (3), I (1), I (1)]] := by decide +kernel

/-- REM at `W = 3`, every pair of operands (95_test_vectors.md section 3). -/
theorem test_rem_w3 :
    table3 0x09#6 signedAxis
    = [[I (0), I (-1), I (0), V,
       Z, I (0), I (0), I (-1)],
      [I (-3), I (0), I (-1), I (0),
       Z, I (0), I (-1), I (0)],
      [I (-2), I (-2), I (0), I (0),
       Z, I (0), I (0), I (-2)],
      [I (-1), I (-1), I (-1), I (0),
       Z, I (0), I (-1), I (-1)],
      [I (0), I (0), I (0), I (0),
       Z, I (0), I (0), I (0)],
      [I (1), I (1), I (1), I (0),
       Z, I (0), I (1), I (1)],
      [I (2), I (2), I (0), I (0),
       Z, I (0), I (0), I (2)],
      [I (3), I (0), I (1), I (0),
       Z, I (0), I (1), I (0)]] := by decide +kernel

/-- DIVE at `W = 3`, every pair of operands (95_test_vectors.md section 3). -/
theorem test_dive_w3 :
    table3 0x0A#6 signedAxis
    = [[I (1), I (2), I (2), V,
       Z, I (-4), I (-2), I (-2)],
      [I (1), I (1), I (2), I (3),
       Z, I (-3), I (-2), I (-1)],
      [I (1), I (1), I (1), I (2),
       Z, I (-2), I (-1), I (-1)],
      [I (1), I (1), I (1), I (1),
       Z, I (-1), I (-1), I (-1)],
      [I (0), I (0), I (0), I (0),
       Z, I (0), I (0), I (0)],
      [I (0), I (0), I (0), I (-1),
       Z, I (1), I (0), I (0)],
      [I (0), I (0), I (-1), I (-2),
       Z, I (2), I (1), I (0)],
      [I (0), I (-1), I (-1), I (-3),
       Z, I (3), I (1), I (1)]] := by decide +kernel

/-- REME at `W = 3`, every pair of operands (95_test_vectors.md section 3). -/
theorem test_reme_w3 :
    table3 0x0B#6 signedAxis
    = [[I (0), I (2), I (0), V,
       Z, I (0), I (0), I (2)],
      [I (1), I (0), I (1), I (0),
       Z, I (0), I (1), I (0)],
      [I (2), I (1), I (0), I (0),
       Z, I (0), I (0), I (1)],
      [I (3), I (2), I (1), I (0),
       Z, I (0), I (1), I (2)],
      [I (0), I (0), I (0), I (0),
       Z, I (0), I (0), I (0)],
      [I (1), I (1), I (1), I (0),
       Z, I (0), I (1), I (1)],
      [I (2), I (2), I (0), I (0),
       Z, I (0), I (0), I (2)],
      [I (3), I (0), I (1), I (0),
       Z, I (0), I (1), I (0)]] := by decide +kernel

/-- ADDU at `W = 3`, every pair of operands (95_test_vectors.md section 3). -/
theorem test_addu_w3 :
    table3 0x02#6 unsignedAxis
    = [[I (-4), I (-3), I (-2), I (-1),
       I (0), I (1), I (2), I (3)],
      [I (-3), I (-2), I (-1), I (0),
       I (1), I (2), I (3), V],
      [I (-2), I (-1), I (0), I (1),
       I (2), I (3), V, V],
      [I (-1), I (0), I (1), I (2),
       I (3), V, V, V],
      [I (0), I (1), I (2), I (3),
       V, V, V, V],
      [I (1), I (2), I (3), V,
       V, V, V, V],
      [I (2), I (3), V, V,
       V, V, V, V],
      [I (3), V, V, V,
       V, V, V, V]] := by decide +kernel

/-- SUBU at `W = 3`, every pair of operands (95_test_vectors.md section 3). -/
theorem test_subu_w3 :
    table3 0x03#6 unsignedAxis
    = [[I (-4), V, V, V,
       V, V, V, V],
      [I (-3), I (-4), V, V,
       V, V, V, V],
      [I (-2), I (-3), I (-4), V,
       V, V, V, V],
      [I (-1), I (-2), I (-3), I (-4),
       V, V, V, V],
      [I (0), I (-1), I (-2), I (-3),
       I (-4), V, V, V],
      [I (1), I (0), I (-1), I (-2),
       I (-3), I (-4), V, V],
      [I (2), I (1), I (0), I (-1),
       I (-2), I (-3), I (-4), V],
      [I (3), I (2), I (1), I (0),
       I (-1), I (-2), I (-3), I (-4)]] := by decide +kernel

/-- NEG at `W = 3`, every input, `a` from −4 to 3 (95_test_vectors.md section 3). -/
theorem test_neg_w3 :
    signedAxis.map (fun a => cell3 0x04#6 a 5)
    = [V, I (3), I (2), I (1),
      I (0), I (-1), I (-2), I (-3)] := by decide +kernel

/-- ABS at `W = 3`, every input, `a` from −4 to 3 (95_test_vectors.md section 3). -/
theorem test_abs_w3 :
    signedAxis.map (fun a => cell3 0x05#6 a 5)
    = [V, I (3), I (2), I (1),
      I (0), I (1), I (2), I (3)] := by decide +kernel

/-- The layout builder at `(W, MB) = (64, 52)`: the 21 constants in op-code order (95_test_vectors.md section 4.1). -/
theorem test_layout_64_52 :
    layoutOps.map (fun op => shownConstant (layoutAt 64 52 (2 ^ 51)) op)
    = [some 0x0000000000000000, some 0x8000000000000000, some 0x3FF0000000000000, some 0xBFF0000000000000,
      some 0x0010000000000000, some 0x8010000000000000, some 0x7FEFFFFFFFFFFFFF, some 0xFFEFFFFFFFFFFFFF,
      some 0x0000000000000001, some 0x8000000000000001, some 0x000FFFFFFFFFFFFF, some 0x800FFFFFFFFFFFFF,
      some 0x7FF0000000000000, some 0xFFF0000000000000, some 0x7FF8000000000000, some 0xFFF8000000000000,
      some 0x0000000000000002, some 0x0000000000000035, some 0x00000000000003FF, some 0xFFFFFFFFFFFFFC03,
      some 0x0000000000000400] := by decide +kernel

/-- The layout builder at `(W, MB) = (32, 23)`: the 21 constants in op-code order (95_test_vectors.md section 4.2). -/
theorem test_layout_32_23 :
    layoutOps.map (fun op => shownConstant (layoutAt 32 23 (2 ^ 22)) op)
    = [some 0x00000000, some 0x80000000, some 0x3F800000, some 0xBF800000,
      some 0x00800000, some 0x80800000, some 0x7F7FFFFF, some 0xFF7FFFFF,
      some 0x00000001, some 0x80000001, some 0x007FFFFF, some 0x807FFFFF,
      some 0x7F800000, some 0xFF800000, some 0x7FC00000, some 0xFFC00000,
      some 0x00000002, some 0x00000018, some 0x0000007F, some 0xFFFFFF83,
      some 0x00000080] := by decide +kernel

/-- The layout builder at `(W, MB) = (16, 10)`: the 21 constants in op-code order (95_test_vectors.md section 4.3). -/
theorem test_layout_16_10 :
    layoutOps.map (fun op => shownConstant (layoutAt 16 10 (2 ^ 9)) op)
    = [some 0x0000, some 0x8000, some 0x3C00, some 0xBC00,
      some 0x0400, some 0x8400, some 0x7BFF, some 0xFBFF,
      some 0x0001, some 0x8001, some 0x03FF, some 0x83FF,
      some 0x7C00, some 0xFC00, some 0x7E00, some 0xFE00,
      some 0x0002, some 0x000B, some 0x000F, some 0xFFF3,
      some 0x0010] := by decide +kernel

/-- The layout builder at `(W, MB) = (16, 7)`: the 21 constants in op-code order (95_test_vectors.md section 4.4). -/
theorem test_layout_16_7 :
    layoutOps.map (fun op => shownConstant (layoutAt 16 7 (2 ^ 6)) op)
    = [some 0x0000, some 0x8000, some 0x3F80, some 0xBF80,
      some 0x0080, some 0x8080, some 0x7F7F, some 0xFF7F,
      some 0x0001, some 0x8001, some 0x007F, some 0x807F,
      some 0x7F80, some 0xFF80, some 0x7FC0, some 0xFFC0,
      some 0x0002, some 0x0008, some 0x007F, some 0xFF83,
      some 0x0080] := by decide +kernel

/-- The layout builder at `(W, MB) = (8, 3)`: the 21 constants in op-code order (95_test_vectors.md section 4.5). -/
theorem test_layout_8_3 :
    layoutOps.map (fun op => shownConstant (layoutAt 8 3 (2 ^ 2)) op)
    = [some 0x00, some 0x80, some 0x38, some 0xB8,
      some 0x08, some 0x88, some 0x77, some 0xF7,
      some 0x01, some 0x81, some 0x07, some 0x87,
      some 0x78, some 0xF8, some 0x7C, some 0xFC,
      some 0x02, some 0x04, some 0x07, some 0xFB,
      some 0x08] := by decide +kernel

/-- The layout builder at `(W, MB) = (4, 1)`: the 21 constants in op-code order (95_test_vectors.md section 4.6). -/
theorem test_layout_4_1 :
    layoutOps.map (fun op => shownConstant (layoutAt 4 1 (2 ^ 0)) op)
    = [some 0x0, some 0x8, some 0x2, some 0xA,
      some 0x2, some 0xA, some 0x5, some 0xD,
      some 0x1, some 0x9, some 0x1, some 0x9,
      some 0x6, some 0xE, some 0x7, some 0xF,
      some 0x2, some 0x2, some 0x1, some 0x1,
      some 0x2] := by decide +kernel

/-- Selected constants at `(W, MB) = (128, 112)` (95_test_vectors.md section 4.7). -/
theorem test_layout_128_112 :
    [0x22#6, 0x26#6, 0x24#6, 0x2C#6,
      0x2E#6, 0x21#6, 0x2A#6, 0x32#6,
      0x33#6, 0x34#6, 0x31#6].map (fun op => shownConstant (layoutAt 128 112 (2 ^ 111)) op)
    = [some 0x3FFF0000000000000000000000000000, some 0x7FFEFFFFFFFFFFFFFFFFFFFFFFFFFFFF, some 0x00010000000000000000000000000000, some 0x7FFF0000000000000000000000000000,
      some 0x7FFF8000000000000000000000000000, some 0x80000000000000000000000000000000, some 0x0000FFFFFFFFFFFFFFFFFFFFFFFFFFFF, some 0x00000000000000000000000000003FFF,
      some 0xFFFFFFFFFFFFFFFFFFFFFFFFFFFFC003, some 0x00000000000000000000000000004000, some 0x00000000000000000000000000000071] := by decide +kernel

/-- A payload other than the default at `(16, 10)` (95_test_vectors.md section 4.8). -/
theorem test_nan_payload :
    [shownConstant (layoutAt 16 10 0x001) 0x2E#6, shownConstant (layoutAt 16 10 0x001) 0x2F#6,
      shownConstant (layoutAt 16 10 0x3FF) 0x2E#6, shownConstant (layoutAt 16 10 0) 0x2E#6]
    = [some 0x7C01, some 0xFC01, some 0x7FFF, none] := by decide +kernel

/-- Digits cross at bit 8 in a two-digit instance (95_test_vectors.md program P5, steps 1 and 4). -/
theorem test_two_digits :
    shownAt { DIGIT_BITS := 8, N := 2, MB := 10, NAN_PAYLOAD := 512 } [0x0000FF0001, 0x028000FFFF]
    = [Y 0x0100, Y 0x7FFF] := by decide +kernel

/-- The bits of a failure's `y` say nothing, and its flags do (R24): `SMIN + SMIN` at `W = 8`. -/
theorem test_failure_flags :
    (match exec (.add ⟨8, 0x80#8⟩ ⟨8, 0x80#8⟩) (State.powerUp w8) with
      | .next t => some (t.flags, t.cause, t.draws)
      | _ => none) = some ((false, true, false), 1, 1) := by decide +kernel

/-- The bit-level description gives the same counts of failing pairs at `W = 3` as R63 and R73 state. -/
theorem test_datapath_counts :
    ([Instr.add, .sub, .addu, .subu, .mul].map fun f =>
      ((unsignedAxis.flatMap fun a => unsignedAxis.map fun b => (a, b)).filter fun p =>
        datapath w3 (f (upat 3 p.1) (upat 3 p.2)) = .overflow).length) = [16, 16, 28, 28, 25] := by decide +kernel

/-! ## Witnesses: states and operands that meet the hypotheses of the statements, a boundary value for each clause -/

/-- The instance of the spec's 8-bit vectors before any command. -/
def s8 : State := State.powerUp w8

/-- The same instance with one command to present. -/
def s8With (op : OpCode) (a b : BitVec 8) : State := s8.issue ⟨op, ⟨8, a⟩, ⟨8, b⟩⟩

/-- The smallest legal layout, `(W, MB) = (4, 1)`, where `E = 2`. -/
def w4 : Config := layoutAt 4 1 1

/-- What an operation leaves on the outputs of the 8-bit instance: `shownCell` for `exec` alone. -/
def execCell (i : Instr) : Cell :=
  match exec i s8 with
  | .next t =>
    match t.answer with
    | some (.value y) => Y y.uval
    | some .overflow => V
    | some .divideByZero => Z
    | none => refused
  | .fault _ => refused
  | .refused _ => refused

/-- Whether a step on an op code is refused as reserved. -/
def refusedAsReserved (op : OpCode) : Bool :=
  match step (s8With op 1#8 1#8) with
  | .refused (.reservedOpCode o) => o == op
  | .refused _ => false
  | .next _ => false
  | .fault _ => false

theorem witness_decode_of_encode :
    (Instr.reme ⟨8, 0x80#8⟩ ⟨8, 0xFF#8⟩).wellFormed w8 = true ∧ (Instr.abs ⟨3, 4#3⟩).wellFormed w3 = true
      ∧ Instr.fcNegNan.wellFormed w4 = true := by decide

theorem witness_encode_of_decode :
    decodeWord 8 0x0B80FF = .instr (.reme ⟨8, 0x80#8⟩ ⟨8, 0xFF#8⟩) ∧ decodeWord 8 0x0480AB = .instr (.neg ⟨8, 0x80#8⟩)
      ∧ decodeWord 8 0x34FFFF = .instr .fcMaxExp := by decide

theorem witness_op_code_bits :
    w8.LayoutLegal ∧ w4.LayoutLegal ∧ decodeOp 0x2F#6 (.zeros 8) (.zeros 8) = some .fcNegNan
      ∧ (0x2F#6).getLsbD 5 = true ∧ (0x2F#6).getLsbD 4 = false
      ∧ decodeOp 0x30#6 (.zeros 8) (.zeros 8) = some .fcRadix ∧ decodeOp 0x0B#6 (.zeros 8) (.zeros 8) = some (.reme (.zeros 8) (.zeros 8)) := by
  decide

/-- The first and last code of each run of reserved codes, and the defined codes beside them (R49). -/
theorem witness_reserved_op_codes :
    [0x07#6, 0x0C#6, 0x1F#6, 0x35#6, 0x3F#6].map refusedAsReserved = [true, true, true, true, true]
      ∧ [0x06#6, 0x08#6, 0x0B#6, 0x20#6, 0x34#6].map refusedAsReserved = [false, false, false, false, false] := by
  decide +kernel

theorem witness_step_runs :
    (s8With 0x00#6 0x7E#8 1#8).pending = ⟨0x00#6, ⟨8, 0x7E#8⟩, ⟨8, 1#8⟩⟩ :: []
      ∧ decode w8.W ⟨0x00#6, ⟨8, 0x7E#8⟩, ⟨8, 1#8⟩⟩ = .instr (.add ⟨8, 0x7E#8⟩ ⟨8, 1#8⟩) ∧ s8.pending = [] := by decide

theorem witness_invariant_at_reset : w3.IntegerLegal ∧ Config.standard.IntegerLegal := by decide

/-- A state of the invariant from which a step delivers, and one from which it fails. -/
theorem witness_every_step :
    (∃ t, (s8With 0x00#6 0x7E#8 1#8).Inv ∧ step (s8With 0x00#6 0x7E#8 1#8) = .next t)
      ∧ ∃ t, (s8With 0x08#6 5#8 0#8).Inv ∧ step (s8With 0x08#6 5#8 0#8) = .next t :=
  ⟨⟨_, ⟨by decide, rfl, rfl, rfl, _, rfl, rfl⟩, rfl⟩, ⟨_, ⟨by decide, rfl, rfl, rfl, _, rfl, rfl⟩, rfl⟩⟩

/-- Next states of `exec`, one for each of the three flag patterns. -/
theorem witness_exec_next :
    (∃ t, exec (.add ⟨8, 0x7E#8⟩ ⟨8, 1#8⟩) s8 = .next t ∧ t.flags = (true, false, false) ∧ t.draws = 0)
      ∧ (∃ t, exec (.add ⟨8, 0x7F#8⟩ ⟨8, 1#8⟩) s8 = .next t ∧ t.flags = (false, true, false) ∧ t.draws = 1)
      ∧ (∃ t, exec (.rem ⟨8, 5#8⟩ ⟨8, 0#8⟩) s8 = .next t ∧ t.flags = (false, false, true) ∧ t.cause = 2) :=
  ⟨⟨_, rfl, rfl, rfl⟩, ⟨_, rfl, rfl, rfl⟩, ⟨_, rfl, rfl, rfl⟩⟩

theorem witness_completion :
    (Instr.mul ⟨8, 2#8⟩ ⟨8, 3#8⟩).wellFormed s8.cfg = true ∧ Instr.fcMinExp.wellFormed s8.cfg = true
      ∧ Instr.fcOne.unitLegal w3 = false ∧ (Instr.neg ⟨0, 0#0⟩).unitLegal { w8 with N := 0 } = false
      ∧ (Instr.neg ⟨9, 1#9⟩).unitLegal w8 = true ∧ (Instr.neg ⟨9, 1#9⟩).operandsFit w8.W = false := by decide

/-- REM of the minimum by −1: its mathematical result is 0. -/
theorem witness_only_remainders :
    mathResult (.rem ⟨8, 0x80#8⟩ ⟨8, 0xFF#8⟩) = some 0 ∧ mathResult (.reme ⟨8, 0x80#8⟩ ⟨8, 0xFF#8⟩) = some 0
      ∧ mathResult (.div ⟨8, 0x80#8⟩ ⟨8, 0xFF#8⟩) = some 128 ∧ Representable w8 0 ∧ ¬ Representable w8 128
      ∧ (Instr.rem ⟨8, 0x80#8⟩ ⟨8, 0xFF#8⟩).wellFormed w8 = true := by decide

theorem witness_fits : BinaryFits s8 ⟨8, 0x80#8⟩ ⟨8, 0xFF#8⟩ ∧ UnaryFits s8 ⟨8, 0x80#8⟩ :=
  ⟨⟨by decide, rfl, rfl⟩, ⟨by decide, rfl⟩⟩

/-- The last sum that fits and the first that does not, on both sides (R56). -/
theorem witness_add :
    [Instr.add ⟨8, 0x7E#8⟩ ⟨8, 1#8⟩, .add ⟨8, 0x7F#8⟩ ⟨8, 1#8⟩, .add ⟨8, 0x81#8⟩ ⟨8, 0xFF#8⟩, .add ⟨8, 0x80#8⟩ ⟨8, 0xFF#8⟩].map execCell
      = [Y 0x7F, V, Y 0x80, V] := by decide +kernel

theorem witness_sub :
    [Instr.sub ⟨8, 0x81#8⟩ ⟨8, 1#8⟩, .sub ⟨8, 0x80#8⟩ ⟨8, 1#8⟩, .sub ⟨8, 0x7E#8⟩ ⟨8, 0xFF#8⟩, .sub ⟨8, 0x7F#8⟩ ⟨8, 0xFF#8⟩].map execCell
      = [Y 0x80, V, Y 0x7F, V] := by decide +kernel

/-- The largest `b` that ever succeeds, and the first sum too large (R60, R61). -/
theorem witness_addu_subu :
    [Instr.addu ⟨8, 0x80#8⟩ ⟨8, 0xFF#8⟩, .addu ⟨8, 0x81#8⟩ ⟨8, 0xFF#8⟩, .subu ⟨8, 0x7F#8⟩ ⟨8, 0xFF#8⟩,
      .subu ⟨8, 0x7E#8⟩ ⟨8, 0xFF#8⟩].map execCell = [Y 0x7F, V, Y 0x80, V] := by decide +kernel

/-- The minimum, its neighbour, −1, 0 and the maximum (R66, R67). -/
theorem witness_neg_abs :
    [Instr.neg ⟨8, 0x80#8⟩, .neg ⟨8, 0x81#8⟩, .neg ⟨8, 0#8⟩, .abs ⟨8, 0x80#8⟩, .abs ⟨8, 0x81#8⟩, .abs ⟨8, 0xFF#8⟩, .abs ⟨8, 0#8⟩,
      .abs ⟨8, 0x7F#8⟩].map execCell = [V, Y 0x7F, Y 0, V, Y 0x7F, Y 1, Y 0, Y 0x7F] := by decide +kernel

/-- The most negative product that succeeds, and the products on either side of the range (R71). -/
theorem witness_mul :
    [Instr.mul ⟨8, 0x40#8⟩ ⟨8, 0xFE#8⟩, .mul ⟨8, 0x41#8⟩ ⟨8, 0xFE#8⟩, .mul ⟨8, 0x7F#8⟩ ⟨8, 1#8⟩, .mul ⟨8, 0x40#8⟩ ⟨8, 2#8⟩].map execCell
      = [Y 0x80, V, Y 0x7F, V] := by decide +kernel

/-- The three arms of the guard: a zero divisor under the minimum, the minimum by −1, the minimum by 1 and its neighbour by −1
(R74). -/
theorem witness_division_guard :
    [Instr.div, .rem, .dive, .reme].map (fun f =>
      [f ⟨8, 0x80#8⟩ ⟨8, 0#8⟩, f ⟨8, 0x80#8⟩ ⟨8, 0xFF#8⟩, f ⟨8, 0x80#8⟩ ⟨8, 1#8⟩, f ⟨8, 0x81#8⟩ ⟨8, 0xFF#8⟩].map execCell)
      = [[Z, V, Y 0x80, Y 0x7F], [Z, V, Y 0, Y 0], [Z, V, Y 0x80, Y 0x7F], [Z, V, Y 0, Y 0]] := by decide +kernel

/-- A negative dividend that the divisor does not divide, on both signs of the divisor (R80). -/
theorem witness_euclid :
    (-2 : Int) ≠ 0 ∧ truncRemainder 7 (-2) = 1 ∧ truncRemainder (-7) 2 = -1 ∧ truncRemainder (-7) (-2) = -1
      ∧ euclidRemainder (-7) 2 = 1 ∧ euclidRemainder (-7) (-2) = 1 ∧ euclidQuotient (-7) 2 = -4 ∧ euclidQuotient (-7) (-2) = 4
      ∧ (0 : Int) ≤ 1 ∧ (1 : Int) < |(-2 : Int)| ∧ (-2 : Int) ∣ 7 - 1 := by decide

/-- The layouts at both ends of the exponent width, and the fields of a constant. -/
theorem witness_layout_legal :
    s8.cfg.LayoutLegal ∧ w4.LayoutLegal ∧ w4.E = 2 ∧ w4.MB = 1 ∧ w8.E ≠ 2 ∧ w8.MB ≠ 1
      ∧ expField w8 (fcMaxPattern w8) = 14 ∧ mantField w8 (fcMaxPattern w8) = 7 ∧ signField w8 (fcMinPattern w8) = true := by
  decide

theorem witness_selected : (⟨8, 0xAB#8⟩ : Pattern).width = w8.W ∧ decode w8.W ⟨0x2E#6, ⟨8, 0xAB#8⟩, ⟨8, 0xCD#8⟩⟩ = .instr .fcNan := by
  decide

/-- The first and the last op code of the sixteen patterns with a clear sign bit (R43). -/
theorem witness_negative_constant :
    (0x20#6).extractLsb' 4 2 = 2#2 ∧ (0x20#6).getLsbD 0 = false ∧ (0x2E#6).extractLsb' 4 2 = 2#2 ∧ (0x2E#6).getLsbD 0 = false := by
  decide

theorem witness_values :
    w8.IntegerLegal ∧ Representable w8 (-128) ∧ Representable w8 127 ∧ ¬ Representable w8 128
      ∧ sval ⟨8, 0x80#8⟩ = -128 ∧ (⟨8, 0x80#8⟩ : Pattern).bits.getLsbD (w8.W - 1) = true ∧ sval ⟨8, 0x7F#8⟩ = 127 := by decide

/-- Two digits, least significant first. -/
theorem witness_digits :
    (digits ⟨8, 2, 10, 512⟩ ⟨16, 0x0100#16⟩ : List (BitVec 8)) = [0x00#8, 0x01#8]
      ∧ (⟨16, 0x0100#16⟩ : Pattern).width = Config.W ⟨8, 2, 10, 512⟩ := ⟨rfl, rfl⟩

/-- The hypotheses of the adder's, the multiplier's and the negator's laws. -/
theorem witness_laws :
    outcome w8 (.add ⟨8, 5#8⟩ ⟨8, 3#8⟩) = .value ⟨8, 8#8⟩ ∧ outcome w8 (.sub ⟨8, 5#8⟩ ⟨8, 3#8⟩) = .value ⟨8, 2#8⟩
      ∧ outcome w8 (.addu ⟨8, 0x80#8⟩ ⟨8, 0xFF#8⟩) = .value ⟨8, 0x7F#8⟩
      ∧ outcome w8 (.subu ⟨8, 0x7F#8⟩ ⟨8, 0xFF#8⟩) = .value ⟨8, 0x80#8⟩ ∧ signBit ⟨8, 0x7F#8⟩ = false
      ∧ outcome w8 (.mul ⟨8, 5#8⟩ ⟨8, 3#8⟩) = .value ⟨8, 15#8⟩ ∧ sval ⟨8, 3#8⟩ ≠ 0
      ∧ signBit ⟨8, 0x80#8⟩ = true := by decide +kernel

/-- A pair on which the truncating and the Euclidean division agree, and one on which they differ (R80, R83). -/
theorem witness_division_laws :
    (outcome w8 (.div ⟨8, 7#8⟩ ⟨8, 2#8⟩) = .value ⟨8, 3#8⟩ ∧ outcome w8 (.rem ⟨8, 7#8⟩ ⟨8, 2#8⟩) = .value ⟨8, 1#8⟩
        ∧ outcome w8 (.dive ⟨8, 7#8⟩ ⟨8, 2#8⟩) = .value ⟨8, 3#8⟩ ∧ outcome w8 (.reme ⟨8, 7#8⟩ ⟨8, 2#8⟩) = .value ⟨8, 1#8⟩)
      ∧ (outcome w8 (.div ⟨8, 0xF9#8⟩ ⟨8, 0xFE#8⟩) = .value ⟨8, 3#8⟩ ∧ outcome w8 (.rem ⟨8, 0xF9#8⟩ ⟨8, 0xFE#8⟩) = .value ⟨8, 0xFF#8⟩
        ∧ outcome w8 (.dive ⟨8, 0xF9#8⟩ ⟨8, 0xFE#8⟩) = .value ⟨8, 4#8⟩
        ∧ outcome w8 (.reme ⟨8, 0xF9#8⟩ ⟨8, 0xFE#8⟩) = .value ⟨8, 1#8⟩) := by decide +kernel

/-- Two instances with the same parameters and another past and future, and the same next command; a step on each. -/
theorem witness_same_command :
    let s := s8With 0x06#6 3#8 5#8
    let s' := { (s8With 0x06#6 3#8 5#8).issue ⟨0x20#6, ⟨8, 0#8⟩, ⟨8, 0#8⟩⟩ with ok := false, ovf := true, draws := 7 }
    s.cfg = s'.cfg ∧ s.pending = ⟨0x06#6, ⟨8, 3#8⟩, ⟨8, 5#8⟩⟩ :: [] ∧ s'.pending = ⟨0x06#6, ⟨8, 3#8⟩, ⟨8, 5#8⟩⟩ :: [⟨0x20#6, ⟨8, 0#8⟩, ⟨8, 0#8⟩⟩]
      ∧ ∃ t, step s = .next t := ⟨rfl, rfl, rfl, _, rfl⟩

/-- A program of three commands that the instance accepts: an overflow, a quotient, a constant. -/
theorem witness_program :
    let cmds : List Command := [⟨0x00#6, ⟨8, 0x7F#8⟩, ⟨8, 1#8⟩⟩, ⟨0x08#6, ⟨8, 7#8⟩, ⟨8, 2#8⟩⟩, ⟨0x2C#6, ⟨8, 0#8⟩, ⟨8, 0#8⟩⟩]
    ({ s8 with pending := cmds } : State).pending = cmds
      ∧ outcomes w8 cmds = [some .overflow, some (.value ⟨8, 3#8⟩), some (.value ⟨8, 0x78#8⟩)]
      ∧ ∀ o ∈ outcomes w8 cmds, o ≠ none := by decide +kernel

end Sys2Proof.Tests
end

section
/-! PROOFS. The family 10_state: what the digits of a value are and what they sum to (R13), and the bijection between patterns
and the signed range (R14). -/
namespace Sys2Proof.Machine

/-! ## The digits of a pattern -/

/-- Digit `i` is the unsigned value, divided by `BASE^i` and cut to one digit. -/
theorem digit_eq_ofNat (c : Config) (p : Pattern) (i : Nat) :
    digit c p i = BitVec.ofNat c.DIGIT_BITS (p.uval / 2 ^ (i * c.DIGIT_BITS)) := by
  rw [digit, BitVec.extractLsb', Nat.shiftRight_eq_div_pow, Pattern.uval]

theorem digit_toNat (c : Config) (p : Pattern) (i : Nat) :
    (digit c p i).toNat = p.uval / 2 ^ (i * c.DIGIT_BITS) % 2 ^ c.DIGIT_BITS := by
  rw [digit_eq_ofNat, BitVec.toNat_ofNat]

@[simp] theorem digits_length (c : Config) (p : Pattern) : (digits c p).length = c.N := by simp [digits]

theorem digits_getElem? (c : Config) (p : Pattern) {i : Nat} (h : i < c.N) : (digits c p)[i]? = some (digit c p i) := by
  rw [digits, List.getElem?_map, List.getElem?_range h, Option.map_some]

/-- A digit appended at the most significant end weighs `BASE^n` after `n` digits. -/
theorem digitsValue_concat {d : Nat} (xs : List (BitVec d)) (y : BitVec d) :
    digitsValue d (xs ++ [y]) = digitsValue d xs + 2 ^ (xs.length * d) * y.toNat := by
  induction xs with
  | nil => simp [digitsValue]
  | cons x xs ih =>
    simp only [List.cons_append, digitsValue, ih, List.length_cons, Nat.succ_mul, pow_add]
    ring

/-- The first `n` digits spell the unsigned value modulo `BASE^n`; the sum of all `N` is the case `n = N`. -/
theorem digitsValue_map_range (c : Config) (p : Pattern) (n : Nat) :
    digitsValue c.DIGIT_BITS ((List.range n).map (digit c p)) = p.uval % 2 ^ (n * c.DIGIT_BITS) := by
  induction n with
  | zero => simp [digitsValue, Nat.mod_one]
  | succ n ih =>
    rw [List.range_succ, List.map_append, List.map_singleton, digitsValue_concat, ih, List.length_map, List.length_range,
      digit_toNat, Nat.succ_mul, pow_add, Nat.mod_mul]

theorem digitsValue_digits {c : Config} {p : Pattern} (h : p.width = c.W) :
    digitsValue c.DIGIT_BITS (digits c p) = p.uval := by
  have hlt : p.uval < 2 ^ c.W := h ▸ p.uval_lt
  rw [digits, digitsValue_map_range]
  exact Nat.mod_eq_of_lt hlt

/-- The top bit of the top digit is the top bit of the pattern (R14). -/
theorem digit_top_getLsbD_top {c : Config} (h : c.IntegerLegal) (p : Pattern) :
    (digit c p (c.N - 1)).getLsbD (c.DIGIT_BITS - 1) = p.bits.getLsbD (c.W - 1) := by
  obtain ⟨hd, hn⟩ := h
  have hpos : (c.N - 1) * c.DIGIT_BITS + (c.DIGIT_BITS - 1) = c.W - 1 := by
    have hle : c.DIGIT_BITS ≤ c.N * c.DIGIT_BITS := Nat.le_mul_of_pos_left _ hn
    rw [Config.W, Nat.sub_one_mul]
    omega
  have hlt : c.DIGIT_BITS - 1 < c.DIGIT_BITS := by omega
  rw [digit, BitVec.getLsbD_extractLsb', hpos, decide_eq_true hlt, Bool.true_and]

/-! ## The patterns of the named values -/

/-- A number of the unsigned range is the unsigned value of its pattern. -/
theorem pat_uval_of_nonneg {w : Nat} {v : Int} (h0 : 0 ≤ v) (h : v < 2 ^ w) : ((pat w v).uval : Int) = v := by
  rw [pat_uval, Int.emod_eq_of_lt h0 h]

/-- The pattern of a negative number carries it plus `2^w`. -/
theorem pat_uval_of_neg {w : Nat} {v : Int} (h : -2 ^ w ≤ v) (h0 : v < 0) : ((pat w v).uval : Int) = v + 2 ^ w := by
  rw [pat_uval, ← Int.add_emod_right, Int.emod_eq_of_lt (by omega) (by omega)]

theorem pat_neg_one (c : Config) : pat c.W (-1) = allOnes c := by
  rw [pat, allOnes, BitVec.ofInt_neg, ← BitVec.neg_one_eq_allOnes]
  rfl

theorem pat_smin_uval {c : Config} (h : c.IntegerLegal) : (pat c.W (smin c)).uval = 2 ^ (c.W - 1) := by
  have hpow := two_pow_pred (W_pos h)
  have hpos : (0 : Int) < 2 ^ (c.W - 1) := by positivity
  have hval : ((pat c.W (smin c)).uval : Int) = smin c + 2 ^ c.W :=
    pat_uval_of_neg (by rw [smin]; omega) (by rw [smin]; omega)
  have hsum : ((pat c.W (smin c)).uval : Int) = 2 ^ (c.W - 1) := by rw [hval, smin]; omega
  exact_mod_cast hsum

theorem pat_smax_uval {c : Config} (h : c.IntegerLegal) : (pat c.W (smax c)).uval = 2 ^ (c.W - 1) - 1 := by
  have hpow := two_pow_pred (W_pos h)
  have hpos : (0 : Int) < 2 ^ (c.W - 1) := by positivity
  have hval : ((pat c.W (smax c)).uval : Int) = 2 ^ (c.W - 1) - 1 :=
    pat_uval_of_nonneg (by rw [smax]; omega) (by rw [smax]; omega)
  have hsucc : (pat c.W (smax c)).uval + 1 = 2 ^ (c.W - 1) := by
    exact_mod_cast (by omega : ((pat c.W (smax c)).uval : Int) + 1 = 2 ^ (c.W - 1))
  omega

theorem pat_zero_uval (w : Nat) : (pat w 0).uval = 0 := by
  exact_mod_cast pat_uval_of_nonneg (le_refl 0) (by positivity : (0 : Int) < 2 ^ w)

/-- The sign bit, read at the width `w` of the pattern, is set exactly for a negative value (R14). -/
theorem getLsbD_top_iff_neg {w : Nat} {p : Pattern} (h : p.width = w) : p.bits.getLsbD (w - 1) = true ↔ sval p < 0 := by
  subst h
  exact signBit_iff_neg p

/-! ## The statements -/

/-- Settles O43: `pat` and `sval` undo each other, and the sign bit is the top bit of the top digit. -/
theorem signedReadingIsABijection : Obligations.SignedReadingIsABijection := by
  intro c hc
  exact ⟨fun v hv => ⟨pat_width c.W v, sval_pat hc hv, pat_uval c.W v⟩,
    fun p hp => ⟨representable_sval hc hp, pat_sval hp⟩,
    fun p q hp hq => Pattern_ext_sval (hp.trans hq.symm),
    fun p hp => ⟨getLsbD_top_iff_neg hp, digit_top_getLsbD_top hc p⟩,
    pat_neg_one c, pat_smin_uval hc, pat_smax_uval hc, pat_zero_uval c.W⟩

/-- Settles O44: by induction on how many digits are summed, the first `n` spell the value modulo `BASE^n`. -/
theorem digitsSpellTheUnsignedValue : Obligations.DigitsSpellTheUnsignedValue := by
  intro c p hp
  refine ⟨digits_length c p, digitsValue_digits hp, hp ▸ p.uval_lt, fun i hi => ?_⟩
  rw [digits_getElem? c p hi, digit_eq_ofNat]

end Sys2Proof.Machine
end

section
/-! PROOFS. The family 20_memory: what the next transaction answers is fixed by its command and the static parameters (R36). -/
namespace Sys2Proof.Machine

/-! ## What a step does with the command the host presents -/

theorem step_of_pending {s : State} {cmd : Command} {rest : List Command} (h : s.pending = cmd :: rest) :
    step s = transact s cmd rest := by rw [step, h]

theorem transact_of_rejected {s : State} {cmd : Command} {e : DecodeError} (h : decode s.cfg.W cmd = .rejected e)
    (rest : List Command) : transact s cmd rest = .refused (refusalOf e) := by rw [transact, h]

theorem transact_of_instr {s : State} {cmd : Command} {i : Instr} (h : decode s.cfg.W cmd = .instr i)
    (rest : List Command) : transact s cmd rest = exec i (s.present cmd rest) := by rw [transact, h]

/-- The operands of an instruction that was decoded are whole ports (R33, R46). -/
theorem operandsFit_of_decode {w : Nat} {cmd : Command} {i : Instr} (h : decode w cmd = .instr i) :
    i.operandsFit w = true := by
  obtain ⟨ha, hb, hop⟩ := decode_eq_instr.mp h
  exact operandsFit_of_decodeOp ha hb hop

/-! ## The answer to a command is the same from every state -/

/-- The parameters and the command fix one refusal or one outcome, before any state is chosen: every machine with those
parameters that is presented that command answers it (R36). -/
theorem step_refused_or_driven (c : Config) (cmd : Command) :
    (∃ r, ∀ s rest, s.cfg = c → s.pending = cmd :: rest → step s = .refused r)
      ∨ ∃ ans, ∀ s rest, s.cfg = c → s.pending = cmd :: rest → step s = .next ((s.present cmd rest).drive ans) := by
  cases hd : decode c.W cmd with
  | rejected e =>
    refine .inl ⟨refusalOf e, ?_⟩
    rintro s rest rfl hp
    rw [step_of_pending hp, transact_of_rejected hd]
  | instr i =>
    cases hu : i.unitLegal c with
    | false =>
      refine .inl ⟨.illegalParameters, ?_⟩
      rintro s rest rfl hp
      rw [step_of_pending hp, transact_of_instr hd, exec_illegal (s := s.present cmd rest) hu]
    | true =>
      have hw : i.wellFormed c = true := Bool.and_eq_true_iff.mpr ⟨hu, operandsFit_of_decode hd⟩
      refine .inr ⟨outcome c i, ?_⟩
      rintro s rest rfl hp
      rw [step_of_pending hp, transact_of_instr hd, exec_of_wellFormed (s := s.present cmd rest) hw, State.present_cfg]

/-- The flags are those of the outcome driven, whatever they were before (R22). -/
@[simp] theorem State.drive_flags (s : State) (ans : Answer) : (s.drive ans).flags = (ans.ok, ans.ovf, ans.dbz) := by
  simp [State.flags]

/-! ## The statement -/

/-- Settles O53: the refusal or the outcome that the command fixes is the same for both states. -/
theorem outcomeDependsOnTheCommandAlone : Obligations.OutcomeDependsOnTheCommandAlone := by
  intro s s' cmd rest rest' hcfg hp hp'
  obtain ⟨r, href⟩ | ⟨ans, hdrv⟩ := step_refused_or_driven s'.cfg cmd
  · rw [href s rest hcfg hp, href s' rest' rfl hp']
    exact ⟨fun _ => Iff.rfl, nofun⟩
  · rw [hdrv s rest hcfg hp, hdrv s' rest' rfl hp']
    refine ⟨fun r => by simp, ?_⟩
    rintro t ⟨⟩
    exact ⟨_, rfl, by simp, by simp⟩

end Sys2Proof.Machine
end

section
/-! PROOFS. The family 40_addsub: each operation of unit 1 delivers the exact result or raises Overflow (R55), with the bounds
that R56, R57, R60 and R61 give for the failure. -/
namespace Sys2Proof.Machine

/-! ## What driving the outputs leaves on them -/

/-- Driving the outputs is within the frame of every operation (R16, R18). -/
@[simp] theorem onlyOutputs_drive (s : State) (ans : Answer) : OnlyOutputs s (s.drive ans) := by
  simp [OnlyOutputs]

theorem raisedOverflow_drive (s : State) : RaisedOverflow s (s.drive .overflow) :=
  ⟨onlyOutputs_drive s .overflow, State.drive_flags s .overflow⟩

/-- A representable number delivered as its pattern is read back from `y` unchanged (R9). -/
theorem deliveredInt_drive_pat {s : State} {v : Int} (hc : s.cfg.IntegerLegal) (hv : Representable s.cfg v) :
    DeliveredInt s (s.drive (.value (pat s.cfg.W v))) v :=
  ⟨onlyOutputs_drive s _, State.drive_flags s _, rfl, sval_pat hc hv⟩

/-! ## What the overflow detector decides -/

theorem not_representable_iff {c : Config} {v : Int} : ¬ Representable c v ↔ smax c < v ∨ v < smin c := by
  rw [Representable]
  omega

/-- A number that cannot be too small is not representable exactly when it is too large. -/
theorem not_representable_iff_smax_lt {c : Config} {v : Int} (h : smin c ≤ v) : ¬ Representable c v ↔ smax c < v := by
  rw [not_representable_iff, or_iff_left h.not_gt]

/-- A number that cannot be too large is not representable exactly when it is too small. -/
theorem not_representable_iff_lt_smin {c : Config} {v : Int} (h : v ≤ smax c) : ¬ Representable c v ↔ v < smin c := by
  rw [not_representable_iff, or_iff_right h.not_gt]

/-! ## The contract of a checked operation -/

/-- An integer operation whose two operands fit can be given to the instance. -/
theorem wellFormed_of_binaryFits {s : State} {a b : Pattern} {i : Instr} (hi : i.isLayout = false)
    (hops : i.operands = [a, b]) (h : BinaryFits s a b) : i.wellFormed s.cfg = true := by
  obtain ⟨hc, ha, hb⟩ := h
  simp [Instr.wellFormed, Instr.unitLegal, Instr.operandsFit, hi, hops, hc, ha, hb]

/-- R55: an operation that puts its exact result `v` through the detector raises Overflow when `v` is not representable and
delivers `v` otherwise. The condition `P` is the form in which a rule says that `v` is not representable. -/
theorem exec_checked {s : State} {a b : Pattern} {i : Instr} {v : Int} {P : Prop} [Decidable P] (hi : i.isLayout = false)
    (hops : i.operands = [a, b]) (hout : outcome s.cfg i = checked s.cfg v) (h : BinaryFits s a b)
    (hP : ¬ Representable s.cfg v ↔ P) :
    if P then ∃ t, exec i s = .next t ∧ RaisedOverflow s t else ∃ t, exec i s = .next t ∧ DeliveredInt s t v := by
  rw [exec_of_wellFormed (wellFormed_of_binaryFits hi hops h), hout]
  split
  case isTrue hp =>
    rw [checked_of_not_representable (hP.mpr hp)]
    exact ⟨_, rfl, raisedOverflow_drive s⟩
  case isFalse hp =>
    have hv : Representable s.cfg v := not_not.mp (mt hP.mp hp)
    rw [checked_of_representable hv]
    exact ⟨_, rfl, deliveredInt_drive_pat h.1 hv⟩

/-! ## The unsigned operand moves a result in one direction only -/

/-- Adding an unsigned value never goes below the minimum (R60). -/
theorem smin_le_sval_add_uval {s : State} {a b : Pattern} (h : BinaryFits s a b) : smin s.cfg ≤ sval a + b.uval := by
  obtain ⟨hc, ha, -⟩ := h
  have hmin : smin s.cfg ≤ sval a := (representable_sval hc ha).1
  omega

/-- Subtracting an unsigned value never goes above the maximum (R61). -/
theorem sval_sub_uval_le_smax {s : State} {a b : Pattern} (h : BinaryFits s a b) : sval a - b.uval ≤ smax s.cfg := by
  obtain ⟨hc, ha, -⟩ := h
  have hmax : sval a ≤ smax s.cfg := (representable_sval hc ha).2
  omega

/-! ## The statements -/

/-- Settles O16: ADD puts the sum of the two signed values through the detector. -/
theorem addDeliversTheExactSumOrOverflows : Obligations.AddDeliversTheExactSumOrOverflows :=
  ⟨fun _ _ _ ha hb => decode_eq_instr.mpr ⟨ha, hb, rfl⟩,
    fun _ _ _ h => exec_checked rfl rfl rfl h not_representable_iff⟩

/-- Settles O17: SUB puts the difference of the two signed values through the detector. -/
theorem subDeliversTheExactDifferenceOrOverflows : Obligations.SubDeliversTheExactDifferenceOrOverflows :=
  ⟨fun _ _ _ ha hb => decode_eq_instr.mpr ⟨ha, hb, rfl⟩,
    fun _ _ _ h => exec_checked rfl rfl rfl h not_representable_iff⟩

/-- Settles O18: the sum is never below the minimum, so the detector fails only above the maximum. -/
theorem adduDeliversTheExactSumOrOverflows : Obligations.AdduDeliversTheExactSumOrOverflows := by
  refine ⟨fun c a b ha hb => decode_eq_instr.mpr ⟨ha, hb, rfl⟩, fun s a b h => ?_⟩
  have hmin : smin s.cfg ≤ sval a + b.uval := smin_le_sval_add_uval h
  exact ⟨hmin, exec_checked rfl rfl rfl h (not_representable_iff_smax_lt hmin)⟩

/-- Settles O19: the difference is never above the maximum, so the detector fails only below the minimum. -/
theorem subuDeliversTheExactDifferenceOrOverflows : Obligations.SubuDeliversTheExactDifferenceOrOverflows := by
  refine ⟨fun c a b ha hb => decode_eq_instr.mpr ⟨ha, hb, rfl⟩, fun s a b h => ?_⟩
  have hmax : sval a - b.uval ≤ smax s.cfg := sval_sub_uval_le_smax h
  exact ⟨hmax, exec_checked rfl rfl rfl h (not_representable_iff_lt_smin hmax)⟩

end Sys2Proof.Machine
end

section
/-! PROOFS. The family 41_negate: the detector of unit 2 fails on the minimum alone (R65); away from it NEG delivers the
negation, which is complement plus one (R66), and ABS the magnitude (R67). -/
namespace Sys2Proof.Machine

/-! ## The contract of an operation on one operand -/

/-- An integer operation whose one operand fits can be given to the instance. -/
theorem wellFormed_of_unaryFits {s : State} {a : Pattern} {i : Instr} (hi : i.isLayout = false)
    (hops : i.operands = [a]) (h : UnaryFits s a) : i.wellFormed s.cfg = true := by
  obtain ⟨hc, ha⟩ := h
  simp [Instr.wellFormed, Instr.unitLegal, Instr.operandsFit, hi, hops, hc, ha]

theorem delivered_drive (s : State) (p : Pattern) : Delivered s (s.drive (.value p)) p :=
  ⟨onlyOutputs_drive s _, State.drive_flags s _, rfl⟩

theorem unlessMinimum_of_eq {c : Config} {a : Pattern} (r : Answer) (h : sval a = smin c) :
    unlessMinimum c a r = .overflow := if_pos h

theorem unlessMinimum_of_ne {c : Config} {a : Pattern} (r : Answer) (h : sval a ≠ smin c) :
    unlessMinimum c a r = r := if_neg h

/-- An operation of unit 2 raises Overflow on the minimum (R65). -/
theorem exec_of_eq_smin {s : State} {a : Pattern} {i : Instr} {r : Answer} (hi : i.isLayout = false)
    (hops : i.operands = [a]) (hout : outcome s.cfg i = unlessMinimum s.cfg a r) (h : UnaryFits s a)
    (hmin : sval a = smin s.cfg) : ∃ t, exec i s = .next t ∧ RaisedOverflow s t := by
  rw [exec_of_wellFormed (wellFormed_of_unaryFits hi hops h), hout, unlessMinimum_of_eq r hmin]
  exact ⟨_, rfl, raisedOverflow_drive s⟩

/-- An operation of unit 2 drives the answer behind its detector on every other operand (R65). -/
theorem exec_of_ne_smin {s : State} {a : Pattern} {i : Instr} {r : Answer} (hi : i.isLayout = false)
    (hops : i.operands = [a]) (hout : outcome s.cfg i = unlessMinimum s.cfg a r) (h : UnaryFits s a)
    (hne : sval a ≠ smin s.cfg) : exec i s = .next (s.drive r) := by
  rw [exec_of_wellFormed (wellFormed_of_unaryFits hi hops h), hout, unlessMinimum_of_ne r hne]

/-! ## Negation within the signed range -/

/-- The signed range is symmetric but for the minimum, the one value whose negation it does not hold. -/
theorem representable_neg {c : Config} {v : Int} (hv : Representable c v) (hne : v ≠ smin c) : Representable c (-v) := by
  obtain ⟨hlo, hhi⟩ := hv
  simp only [Representable, smin, smax] at hlo hhi hne ⊢
  omega

theorem neg_ne_smin {c : Config} {v : Int} (hv : Representable c v) : -v ≠ smin c := by
  obtain ⟨-, hhi⟩ := hv
  simp only [smin, smax] at hhi ⊢
  omega

/-- The pattern of the negation of any operand but the minimum reads as that negation. -/
theorem sval_pat_neg_sval {c : Config} {a : Pattern} (hc : c.IntegerLegal) (ha : a.width = c.W) (hne : sval a ≠ smin c) :
    sval (pat c.W (-sval a)) = -sval a :=
  sval_pat hc (representable_neg (representable_sval hc ha) hne)

/-- The negation of the minimum, `2^(W−1)`, wraps to the pattern of the minimum. -/
theorem pat_neg_smin {c : Config} (hc : c.IntegerLegal) : pat c.W (-smin c) = pat c.W (smin c) := by
  have hpow := two_pow_pred (W_pos hc)
  have hpos : (0 : Int) < 2 ^ (c.W - 1) := by positivity
  have hval : ((pat c.W (-smin c)).uval : Int) = -smin c :=
    pat_uval_of_nonneg (by rw [smin]; omega) (by rw [smin]; omega)
  refine Pattern.ext_uval rfl ?_
  rw [pat_smin_uval hc]
  zify
  rw [hval, smin, neg_neg]

theorem smin_lt_zero (c : Config) : smin c < 0 := by simp [smin]

theorem signBit_eq_false_iff_nonneg (p : Pattern) : signBit p = false ↔ 0 ≤ sval p := by
  rw [← Bool.not_eq_true, signBit_iff_neg, not_lt]

/-! ## Complement plus one and its detector (R66) -/

theorem complementPlusOne_eq_pat {a : Pattern} {w : Nat} (h : a.width = w) : complementPlusOne a = pat w (-sval a) := by
  subst h
  rw [complementPlusOne, ← BitVec.neg_eq_not_add, pat, sval_eq_toInt, BitVec.ofInt_neg, BitVec.ofInt_toInt]

/-- The sign bit is set before and after complement plus one on the minimum, which is its own complement plus one, and
nowhere else: any other negative operand has a positive negation. -/
theorem negOverflowBit_iff_eq_smin {c : Config} {a : Pattern} (hc : c.IntegerLegal) (ha : a.width = c.W) :
    negOverflowBit a = true ↔ sval a = smin c := by
  rw [negOverflowBit, Bool.and_eq_true, signBit_iff_neg, signBit_iff_neg, complementPlusOne_eq_pat ha]
  by_cases hmin : sval a = smin c
  · have hself : pat c.W (-sval a) = a := by rw [hmin, pat_neg_smin hc, ← hmin, pat_sval ha]
    have hneg : sval a < 0 := hmin ▸ smin_lt_zero c
    rw [hself]
    exact ⟨fun _ => hmin, fun _ => ⟨hneg, hneg⟩⟩
  · rw [sval_pat_neg_sval hc ha hmin]
    omega

/-! ## NEG and ABS away from the minimum -/

theorem exec_neg_of_ne_smin {s : State} {a : Pattern} (h : UnaryFits s a) (hne : sval a ≠ smin s.cfg) :
    exec (.neg a) s = .next (s.drive (.value (pat s.cfg.W (-sval a)))) :=
  exec_of_ne_smin rfl rfl rfl h hne

/-- NEG of a delivered negation delivers the operand again (R66). -/
theorem exec_neg_pat_neg_sval {s t : State} {a : Pattern} (h : UnaryFits s a) (hne : sval a ≠ smin s.cfg)
    (ht : t.cfg = s.cfg) : exec (.neg (pat s.cfg.W (-sval a))) t = .next (t.drive (.value a)) := by
  obtain ⟨hc, ha⟩ := h
  have hval : sval (pat s.cfg.W (-sval a)) = -sval a := sval_pat_neg_sval hc ha hne
  rw [← ht] at hc ha hval ⊢
  rw [exec_neg_of_ne_smin ⟨hc, rfl⟩ (by rw [hval]; exact neg_ne_smin (representable_sval hc ha)), hval, neg_neg,
    pat_sval ha]

theorem exec_abs_of_neg {s : State} {a : Pattern} (h : UnaryFits s a) (hne : sval a ≠ smin s.cfg) (hneg : sval a < 0) :
    exec (.abs a) s = .next (s.drive (.value (pat s.cfg.W (-sval a)))) := by
  rw [exec_of_ne_smin rfl rfl rfl h hne, if_pos hneg]

theorem exec_abs_of_nonneg {s : State} {a : Pattern} (h : UnaryFits s a) (hne : sval a ≠ smin s.cfg)
    (hnonneg : ¬ sval a < 0) : exec (.abs a) s = .next (s.drive (.value a)) := by
  rw [exec_of_ne_smin rfl rfl rfl h hne, if_neg hnonneg]

/-! ## The statements -/

/-- Settles O20: only the minimum has no negation in range, and two negations of any other operand give it back. -/
theorem negDeliversTheNegationUnlessTheMinimum : Obligations.NegDeliversTheNegationUnlessTheMinimum := by
  refine ⟨fun c a b ha hb => decode_eq_instr.mpr ⟨ha, hb, rfl⟩, fun s a h => ?_⟩
  have ⟨hc, ha⟩ := h
  refine ⟨negOverflowBit_iff_eq_smin hc ha, ?_⟩
  split
  case isTrue hmin => exact exec_of_eq_smin rfl rfl rfl h hmin
  case isFalse hne =>
    exact ⟨_, exec_neg_of_ne_smin h hne,
      deliveredInt_drive_pat hc (representable_neg (representable_sval hc ha) hne),
      (complementPlusOne_eq_pat ha).symm, _, exec_neg_pat_neg_sval h hne (State.drive_cfg _ _), delivered_drive _ a⟩

/-- Settles O21: away from the minimum, a negative operand is negated and any other passes through, so the delivered value is
not negative. -/
theorem absDeliversTheMagnitudeUnlessTheMinimum : Obligations.AbsDeliversTheMagnitudeUnlessTheMinimum := by
  refine ⟨fun c a b ha hb => decode_eq_instr.mpr ⟨ha, hb, rfl⟩, fun s a h => ?_⟩
  have ⟨hc, ha⟩ := h
  split
  case isTrue hmin => exact exec_of_eq_smin rfl rfl rfl h hmin
  case isFalse hne =>
    split
    case isTrue hneg =>
      have hval : sval (pat s.cfg.W (-sval a)) = -sval a := sval_pat_neg_sval hc ha hne
      exact ⟨_, exec_abs_of_neg h hne hneg,
        deliveredInt_drive_pat hc (representable_neg (representable_sval hc ha) hne),
        (signBit_eq_false_iff_nonneg _).mpr (by rw [State.drive_value, State.deliver_y, hval]; omega)⟩
    case isFalse hnonneg =>
      exact ⟨_, exec_abs_of_nonneg h hne hnonneg, delivered_drive s a,
        (signBit_eq_false_iff_nonneg a).mpr (not_lt.mp hnonneg)⟩

end Sys2Proof.Machine
end

section
/-! PROOFS. The family 42_multiply: unit 3 goes through the same detector as unit 1 (R55, R70), so MUL meets the contract of a
checked operation, `exec_checked`, for the exact product (R71). -/
namespace Sys2Proof.Machine

/-- Settles O22: MUL puts the product of the two signed values through the detector, which fails above the maximum and below
the minimum. -/
theorem mulDeliversTheExactProductOrOverflows : Obligations.MulDeliversTheExactProductOrOverflows :=
  ⟨fun _ _ _ ha hb => decode_eq_instr.mpr ⟨ha, hb, rfl⟩,
    fun _ _ _ h => exec_checked rfl rfl rfl h not_representable_iff⟩

end Sys2Proof.Machine
end

section
/-! PROOFS. The family 43_divide: the guard of unit 4 on values and on patterns (R74), the truncating pair (R76 to R78), and
why a remainder of the minimum is the one failure with a representable result (R79). -/
namespace Sys2Proof.Machine

/-! ## The truncating remainder and what it leaves of the dividend (R76) -/

theorem truncRemainder_eq_tmod (n d : Int) : truncRemainder n d = n.tmod d := (Int.tmod_def n d).symm

theorem natAbs_truncRemainder (n d : Int) : (truncRemainder n d).natAbs = n.natAbs % d.natAbs := by
  rw [truncRemainder_eq_tmod, Int.natAbs_tmod]

theorem abs_truncRemainder_lt (n : Int) {d : Int} (hd : d ≠ 0) : |truncRemainder n d| < |d| := by
  rw [Int.abs_eq_natAbs, Int.abs_eq_natAbs, natAbs_truncRemainder]
  exact_mod_cast Nat.mod_lt _ (Int.natAbs_pos.mpr hd)

/-- The truncating remainder lies between zero and the dividend: it has the dividend's sign and is no larger (R78). -/
theorem truncRemainder_between (n d : Int) :
    0 ≤ truncRemainder n d ∧ truncRemainder n d ≤ n ∨ n ≤ truncRemainder n d ∧ truncRemainder n d ≤ 0 := by
  have hle : (truncRemainder n d).natAbs ≤ n.natAbs := natAbs_truncRemainder n d ▸ Nat.mod_le _ _
  rcases le_total 0 n with hn | hn
  · have hr : 0 ≤ truncRemainder n d := truncRemainder_eq_tmod n d ▸ Int.tmod_nonneg d hn
    omega
  · have hr : 0 ≤ -truncRemainder n d := by
      rw [truncRemainder_eq_tmod, ← Int.neg_tmod]
      exact Int.tmod_nonneg d (by omega)
    omega

theorem mul_truncRemainder_nonneg (n d : Int) : 0 ≤ n * truncRemainder n d := by
  obtain ⟨hr, hrn⟩ | ⟨hnr, hr⟩ := truncRemainder_between n d
  · exact mul_nonneg (hr.trans hrn) hr
  · exact mul_nonneg_of_nonpos_of_nonpos (hnr.trans hr) hr

theorem dvd_sub_truncRemainder (n d : Int) : d ∣ n - truncRemainder n d :=
  ⟨truncQuotient n d, sub_sub_cancel _ _⟩

theorem mul_truncQuotient (n d : Int) : d * truncQuotient n d = n - truncRemainder n d := (sub_sub_cancel _ _).symm

/-- What the divisor makes of the truncating quotient is no larger than the dividend: rounding is toward zero (R77). -/
theorem abs_mul_truncQuotient_le (n d : Int) : |d * truncQuotient n d| ≤ |n| := by
  have hr := truncRemainder_between n d
  rw [mul_truncQuotient, Int.abs_eq_natAbs, Int.abs_eq_natAbs]
  omega

/-- The truncating quotient is zero or has the sign of the rational quotient (R77). -/
theorem mul_mul_truncQuotient_nonneg (n d : Int) : 0 ≤ n * (d * truncQuotient n d) := by
  rw [mul_truncQuotient]
  obtain ⟨hr, hrn⟩ | ⟨hnr, hr⟩ := truncRemainder_between n d
  · exact mul_nonneg (hr.trans hrn) (sub_nonneg.mpr hrn)
  · exact mul_nonneg_of_nonpos_of_nonpos (hnr.trans hr) (sub_nonpos.mpr hnr)

/-! ## The Euclidean pair (R80) -/

theorem mul_euclidQuotient (n d : Int) : d * euclidQuotient n d = n - euclidRemainder n d :=
  Int.mul_tdiv_cancel' Int.dvd_self_sub_emod

theorem euclidRemainder_nonneg (n : Int) {d : Int} (hd : d ≠ 0) : 0 ≤ euclidRemainder n d := Int.emod_nonneg n hd

theorem abs_euclidRemainder_lt (n : Int) {d : Int} (hd : d ≠ 0) : |euclidRemainder n d| < |d| := by
  rw [abs_of_nonneg (euclidRemainder_nonneg n hd)]
  exact Int.emod_lt_abs n hd

/-! ## The divisor −1 (R79) -/

theorem truncQuotient_neg_one (n : Int) : truncQuotient n (-1) = -n := by
  rw [truncQuotient, Int.tdiv_neg, Int.tdiv_one]

theorem truncRemainder_neg_one (n : Int) : truncRemainder n (-1) = 0 := by
  rw [truncRemainder, truncQuotient_neg_one, neg_mul_neg, one_mul, sub_self]

theorem euclidRemainder_neg_one (n : Int) : euclidRemainder n (-1) = 0 := (Int.emod_neg n 1).trans (Int.emod_one n)

theorem euclidQuotient_neg_one (n : Int) : euclidQuotient n (-1) = -n := by
  have h := mul_euclidQuotient n (-1)
  rw [euclidRemainder_neg_one] at h
  omega

/-! ## Which results of a division are representable -/

theorem representable_of_nonpos {c : Config} {v : Int} (h : smin c ≤ v) (h0 : v ≤ 0) : Representable c v :=
  ⟨h, h0.trans (Int.le_sub_one_of_lt (by positivity))⟩

theorem representable_zero (c : Config) : Representable c 0 := representable_of_nonpos (smin_lt_zero c).le le_rfl

theorem representable_smin (c : Config) : Representable c (smin c) := representable_of_nonpos le_rfl (smin_lt_zero c).le

theorem representable_neg_one (c : Config) : Representable c (-1) :=
  representable_of_nonpos (Int.le_sub_one_of_lt (smin_lt_zero c)) (by decide)

theorem not_representable_neg_smin (c : Config) : ¬ Representable c (-smin c) := by
  simp only [Representable, smin, smax]
  omega

/-- A number smaller than a representable one in magnitude is representable. -/
theorem representable_of_abs_lt {c : Config} {r d : Int} (hd : Representable c d) (h : |r| < |d|) : Representable c r := by
  rw [Int.abs_eq_natAbs, Int.abs_eq_natAbs] at h
  simp only [Representable, smin, smax] at hd ⊢
  omega

/-- A quotient that leaves less than the divisor is representable, for every rounding, unless it is that of the minimum by −1:
anything outside the range, times the divisor, is further than one divisor from every dividend in the range. -/
theorem representable_quotient {c : Config} {n d q : Int} (hn : Representable c n) (hd : Representable c d)
    (hex : ¬ (n = smin c ∧ d = -1)) (hr : |n - d * q| < |d|) : Representable c q := by
  have hM : (0 : Int) < 2 ^ (c.W - 1) := by positivity
  have hd0 : d ≠ 0 := abs_pos.mp ((abs_nonneg _).trans_lt hr)
  obtain ⟨hlo, hhi⟩ := abs_lt.mp hr
  simp only [Representable, smin, smax] at hn hd hex ⊢
  generalize (2 : Int) ^ (c.W - 1) = M at hM hn hd hex ⊢
  rcases hd0.lt_or_gt with hneg | hpos
  · rw [abs_of_neg hneg] at hlo hhi
    constructor <;> by_contra! hq
    · nlinarith [mul_le_mul_of_nonpos_left hq.le hneg.le]
    · have hd1 : d = -1 := by nlinarith
      subst hd1
      omega
  · rw [abs_of_pos hpos] at hlo hhi
    constructor <;> by_contra! hq
    · nlinarith [mul_le_mul_of_nonneg_left hq.le hpos.le]
    · nlinarith [mul_le_mul_of_nonneg_left hq.le hpos.le]

theorem representable_truncQuotient {c : Config} {n d : Int} (hn : Representable c n) (hd : Representable c d) (hd0 : d ≠ 0)
    (hex : ¬ (n = smin c ∧ d = -1)) : Representable c (truncQuotient n d) :=
  representable_quotient hn hd hex (abs_truncRemainder_lt n hd0)

theorem representable_euclidQuotient {c : Config} {n d : Int} (hn : Representable c n) (hd : Representable c d) (hd0 : d ≠ 0)
    (hex : ¬ (n = smin c ∧ d = -1)) : Representable c (euclidQuotient n d) := by
  refine representable_quotient hn hd hex ?_
  rw [mul_euclidQuotient, sub_sub_cancel]
  exact abs_euclidRemainder_lt n hd0

theorem representable_truncRemainder {c : Config} (n : Int) {d : Int} (hd : Representable c d) (hd0 : d ≠ 0) :
    Representable c (truncRemainder n d) := representable_of_abs_lt hd (abs_truncRemainder_lt n hd0)

theorem representable_euclidRemainder {c : Config} (n : Int) {d : Int} (hd : Representable c d) (hd0 : d ≠ 0) :
    Representable c (euclidRemainder n d) := representable_of_abs_lt hd (abs_euclidRemainder_lt n hd0)

/-! ## The guard on patterns (R74) -/

/-- A pattern has the signed value `v` exactly when it has the unsigned value of the pattern of `v`. -/
theorem sval_eq_iff_uval_eq {c : Config} {p : Pattern} {v : Int} (hc : c.IntegerLegal) (hp : p.width = c.W)
    (hv : Representable c v) : sval p = v ↔ p.uval = (pat c.W v).uval := by
  constructor
  · rintro rfl
    rw [pat_sval hp]
  · intro hu
    rw [Pattern.ext_uval (hp.trans (pat_width c.W v).symm) hu, sval_pat hc hv]

theorem sval_eq_zero_iff {c : Config} {p : Pattern} (hc : c.IntegerLegal) (hp : p.width = c.W) :
    sval p = 0 ↔ p.uval = 0 := by
  rw [sval_eq_iff_uval_eq hc hp (representable_zero c), pat_zero_uval]

theorem sval_eq_smin_iff {c : Config} {p : Pattern} (hc : c.IntegerLegal) (hp : p.width = c.W) :
    sval p = smin c ↔ p.uval = 2 ^ (c.W - 1) := by
  rw [sval_eq_iff_uval_eq hc hp (representable_smin c), pat_smin_uval hc]

theorem allOnes_uval (c : Config) : (allOnes c).uval = 2 ^ c.W - 1 := BitVec.toNat_allOnes

theorem sval_eq_neg_one_iff {c : Config} {p : Pattern} (hc : c.IntegerLegal) (hp : p.width = c.W) :
    sval p = -1 ↔ p.uval = 2 ^ c.W - 1 := by
  rw [sval_eq_iff_uval_eq hc hp (representable_neg_one c), pat_neg_one, allOnes_uval]

/-! ## The contract of a division -/

theorem raisedDivideByZero_drive (s : State) : RaisedDivideByZero s (s.drive .divideByZero) :=
  ⟨onlyOutputs_drive s .divideByZero, State.drive_flags s .divideByZero⟩

/-- R74: an operation that puts the pattern of its result `v` behind the guard raises DivideByZero on a zero divisor and Overflow
at `(SMIN, −1)`, and delivers `v` otherwise. `P` is what a rule says of the result; it need hold only where the guard passes. -/
theorem exec_guarded {s : State} {a b : Pattern} {i : Instr} {v : Int} {P : Int → Prop} (hi : i.isLayout = false)
    (hops : i.operands = [a, b]) (hout : outcome s.cfg i = divisionGuard s.cfg a b (.value (pat s.cfg.W v)))
    (h : BinaryFits s a b)
    (hv : sval b ≠ 0 → ¬ (sval a = smin s.cfg ∧ sval b = -1) → Representable s.cfg v ∧ P v) :
    if sval b = 0 then ∃ t, exec i s = .next t ∧ RaisedDivideByZero s t
    else if sval a = smin s.cfg ∧ sval b = -1 then ∃ t, exec i s = .next t ∧ RaisedOverflow s t
    else ∃ t v, exec i s = .next t ∧ DeliveredInt s t v ∧ P v := by
  rw [exec_of_wellFormed (wellFormed_of_binaryFits hi hops h), hout]
  split_ifs with h0 hex
  · rw [divisionGuard_zero h0]
    exact ⟨_, rfl, raisedDivideByZero_drive s⟩
  · rw [divisionGuard_overflow hex.1 hex.2]
    exact ⟨_, rfl, raisedOverflow_drive s⟩
  · obtain ⟨hrep, hP⟩ := hv h0 hex
    rw [divisionGuard_pass h0 hex]
    exact ⟨_, v, rfl, deliveredInt_drive_pat h.1 hrep, hP⟩

/-! ## Failures with a representable result (R79) -/

/-- A quotient that is the negation of the dividend for the divisor −1 is not representable where the guard raises Overflow, so
the guard passes every representable one. -/
theorem divisionGuard_of_representable_quotient {c : Config} {a b : Pattern} {q : Int} (r : Answer) (h0 : sval b ≠ 0)
    (hneg : sval b = -1 → q = -sval a) (hq : Representable c q) : divisionGuard c a b r = r := by
  refine divisionGuard_pass h0 ?_
  rintro ⟨ha, hb⟩
  rw [hneg hb, ha] at hq
  exact not_representable_neg_smin c hq

/-- An operand whose negation is representable is not the minimum. -/
theorem ne_smin_of_representable_neg {c : Config} {v : Int} (h : Representable c (-v)) : v ≠ smin c := by
  rintro rfl
  exact not_representable_neg_smin c h

theorem absAnswer_of_representable {c : Config} {a : Pattern} (ha : a.width = c.W) (h : Representable c |sval a|) :
    absAnswer c a = .value (pat c.W |sval a|) := by
  have hmin := smin_lt_zero c
  rcases lt_or_ge (sval a) 0 with hneg | hnonneg
  · rw [abs_of_neg hneg] at h ⊢
    rw [absAnswer, unlessMinimum_of_ne _ (ne_smin_of_representable_neg h), if_pos hneg]
  · rw [absAnswer, unlessMinimum_of_ne _ (by omega), if_neg hnonneg.not_gt, abs_of_nonneg hnonneg, pat_sval ha]

/-- An operation delivers its mathematical result whenever that is representable, unless it is a remainder of the minimum by −1
(R79). -/
theorem outcome_of_representable {c : Config} {i : Instr} {r : Int} (hw : i.operandsFit c.W = true) (hr : mathResult i = some r)
    (hrep : Representable c r)
    (hex : ¬ ∃ a b, (i = .rem a b ∨ i = .reme a b) ∧ sval a = smin c ∧ sval b = -1) :
    outcome c i = .value (pat c.W r) := by
  cases i with
  | add a b | sub a b | addu a b | subu a b | mul a b =>
    cases hr
    exact checked_of_representable hrep
  | neg a =>
    cases hr
    exact unlessMinimum_of_ne _ (ne_smin_of_representable_neg hrep)
  | abs a =>
    cases hr
    exact absAnswer_of_representable (by simpa [Instr.operandsFit, Instr.operands] using hw) hrep
  | div a b =>
    obtain ⟨h0, ⟨⟩⟩ := Option.ite_none_left_eq_some.mp hr
    exact divisionGuard_of_representable_quotient _ h0 (fun hb => hb ▸ truncQuotient_neg_one _) hrep
  | dive a b =>
    obtain ⟨h0, ⟨⟩⟩ := Option.ite_none_left_eq_some.mp hr
    exact divisionGuard_of_representable_quotient _ h0 (fun hb => hb ▸ euclidQuotient_neg_one _) hrep
  | rem a b =>
    obtain ⟨h0, ⟨⟩⟩ := Option.ite_none_left_eq_some.mp hr
    exact divisionGuard_pass h0 fun hmin => hex ⟨a, b, .inl rfl, hmin⟩
  | reme a b =>
    obtain ⟨h0, ⟨⟩⟩ := Option.ite_none_left_eq_some.mp hr
    exact divisionGuard_pass h0 fun hmin => hex ⟨a, b, .inr rfl, hmin⟩
  | _ => cases hr

/-- A remainder of the minimum by −1 is 0 and nevertheless an Overflow (R79). -/
theorem remainder_of_smin {c : Config} {i : Instr} {a b : Pattern} {r : Int} (hi : i = .rem a b ∨ i = .reme a b)
    (ha : sval a = smin c) (hb : sval b = -1) (hr : mathResult i = some r) : r = 0 ∧ outcome c i = .overflow := by
  rcases hi with rfl | rfl
  · obtain ⟨-, ⟨⟩⟩ := Option.ite_none_left_eq_some.mp hr
    exact ⟨hb ▸ truncRemainder_neg_one _, divisionGuard_overflow ha hb⟩
  · obtain ⟨-, ⟨⟩⟩ := Option.ite_none_left_eq_some.mp hr
    exact ⟨hb ▸ euclidRemainder_neg_one _, divisionGuard_overflow ha hb⟩

/-! ## The statements -/

/-- Settles O15: away from the remainders of the minimum by −1, a representable result is delivered, so no operation fails. -/
theorem onlyRemaindersOfTheMinimumFailWithARepresentableResult :
    Obligations.OnlyRemaindersOfTheMinimumFailWithARepresentableResult := by
  intro s i r hw hr
  have hmin : ∀ a b, i = .rem a b ∨ i = .reme a b → sval a = smin s.cfg → sval b = -1 →
      r = 0 ∧ ∃ t, exec i s = .next t ∧ RaisedOverflow s t := by
    intro a b hi ha hb
    obtain ⟨hr0, hout⟩ := remainder_of_smin hi ha hb hr
    rw [exec_of_wellFormed hw, hout]
    exact ⟨hr0, _, rfl, raisedOverflow_drive s⟩
  refine ⟨⟨?_, ?_⟩, hmin⟩
  · rintro ⟨t, ht, hok, hrep⟩
    by_contra hex
    obtain ⟨-, rfl⟩ := exec_next ht
    have hfit : i.operandsFit s.cfg.W = true := (Bool.and_eq_true_iff.mp hw).2
    rw [outcome_of_representable hfit hr hrep hex] at hok
    cases hok
  · rintro ⟨a, b, hi, ha, hb⟩
    obtain ⟨rfl, t, ht, -, hflags⟩ := hmin a b hi ha hb
    exact ⟨t, ht, congrArg Prod.fst hflags, representable_zero s.cfg⟩

/-- Settles O23: where the guard passes, each of the four results is representable. -/
theorem divisionGuardIsCommonAndReadsOffThePatterns : Obligations.DivisionGuardIsCommonAndReadsOffThePatterns := by
  intro s a b i h hi
  have ⟨hc, ha, hb⟩ := h
  have hn : Representable s.cfg (sval a) := representable_sval hc ha
  have hd : Representable s.cfg (sval b) := representable_sval hc hb
  refine ⟨sval_eq_zero_iff hc hb, and_congr (sval_eq_smin_iff hc ha) (sval_eq_neg_one_iff hc hb), ?_⟩
  obtain rfl | rfl | rfl | rfl := hi
  · exact exec_guarded rfl rfl rfl h fun h0 hex => ⟨representable_truncQuotient hn hd h0 hex, if_neg h0⟩
  · exact exec_guarded rfl rfl rfl h fun h0 _ => ⟨representable_truncRemainder _ hd h0, if_neg h0⟩
  · exact exec_guarded rfl rfl rfl h fun h0 hex => ⟨representable_euclidQuotient hn hd h0 hex, if_neg h0⟩
  · exact exec_guarded rfl rfl rfl h fun h0 _ => ⟨representable_euclidRemainder _ hd h0, if_neg h0⟩

/-- Settles O24: what DIV delivers behind the guard is the dividend less its truncating remainder, divided exactly. -/
theorem divDeliversTheTruncatingQuotient : Obligations.DivDeliversTheTruncatingQuotient := by
  refine ⟨fun c a b ha hb => decode_eq_instr.mpr ⟨ha, hb, rfl⟩, fun s a b h => ?_⟩
  have ⟨hc, ha, hb⟩ := h
  refine exec_guarded rfl rfl rfl h fun h0 hex => ⟨?_, rfl, ?_, ?_, ?_⟩
  · exact representable_truncQuotient (representable_sval hc ha) (representable_sval hc hb) h0 hex
  · exact abs_mul_truncQuotient_le (sval a) (sval b)
  · exact abs_truncRemainder_lt (sval a) h0
  · exact mul_mul_truncQuotient_nonneg (sval a) (sval b)

/-- Settles O25: the truncating remainder is smaller than the divisor, so REM delivers it wherever the guard passes. -/
theorem remDeliversTheTruncatingRemainder : Obligations.RemDeliversTheTruncatingRemainder := by
  refine ⟨fun c a b ha hb => decode_eq_instr.mpr ⟨ha, hb, rfl⟩, fun s a b h => ?_⟩
  have ⟨hc, _, hb⟩ := h
  refine exec_guarded rfl rfl rfl h fun h0 _ => ⟨?_, rfl, ?_, ?_, ?_⟩
  · exact representable_truncRemainder (sval a) (representable_sval hc hb) h0
  · exact dvd_sub_truncRemainder (sval a) (sval b)
  · exact abs_truncRemainder_lt (sval a) h0
  · exact mul_truncRemainder_nonneg (sval a) (sval b)

end Sys2Proof.Machine
end

section
/-! PROOFS. The family 44_float_layout: the scalar constants are numbers of the signed range delivered as Signed Core values (R106
to R109), and the exponent bias is the maximum signed pattern with all but `E − 1` of its ones shifted out (R109). -/
namespace Sys2Proof.Machine

/-! ## The contract of a scalar constant -/

/-- An op code that gives one operation for any operands selects it whatever is on the ports (R47). -/
theorem selectedBy_of_decodeOp {op : OpCode} {i : Instr} (h : ∀ a b, decodeOp op a b = some i) (c : Config) :
    SelectedBy c op i := fun a b ha hb => decode_eq_instr.mpr ⟨ha, hb, h a b⟩

/-- An operation of the layout builder takes no operand, so legal parameters are all it needs. -/
theorem wellFormed_of_layoutLegal {c : Config} {i : Instr} (hi : i.isLayout = true) (hops : i.operands = [])
    (hl : c.LayoutLegal) : i.wellFormed c = true := by
  simp [Instr.wellFormed, Instr.unitLegal, Instr.operandsFit, hi, hops, hl]

/-- R106: an operation of the layout builder whose outcome is the pattern of a representable number delivers that number. -/
theorem exec_scalar {s : State} {i : Instr} {v : Int} (hi : i.isLayout = true) (hops : i.operands = [])
    (hout : outcome s.cfg i = .value (pat s.cfg.W v)) (hl : s.cfg.LayoutLegal) (hv : Representable s.cfg v) :
    ∃ t, exec i s = .next t ∧ DeliveredInt s t v := by
  rw [exec_of_wellFormed (wellFormed_of_layoutLegal hi hops hl), hout]
  exact ⟨_, rfl, deliveredInt_drive_pat hl.1 hv⟩

/-- A delivered number fixes the bits on `y`. -/
theorem DeliveredInt.y_eq_pat {s t : State} {v : Int} (h : DeliveredInt s t v) : t.y = pat s.cfg.W v := by
  obtain ⟨-, -, hwidth, hval⟩ := h
  rw [← hval, pat_sval hwidth]

/-! ## The scalars are representable -/

theorem representable_natCast {c : Config} {n : Nat} (h : n < 2 ^ (c.W - 1)) : Representable c n := by
  have hn : (n : Int) < 2 ^ (c.W - 1) := by exact_mod_cast h
  rw [Representable, smin, smax]
  omega

/-- `MB + 1 ≤ W − 2` leaves room for the count of mantissa digits and for every smaller number. -/
theorem representable_of_le_mantissaDigits {c : Config} {n : Nat} (hl : c.LayoutLegal) (h : n ≤ c.MB + 1) :
    Representable c n := by
  obtain ⟨-, -, hW, -⟩ := hl
  have hlt : n < c.W - 1 := by omega
  exact representable_natCast (hlt.trans Nat.lt_two_pow_self)

theorem bias_lt (c : Config) : bias c < 2 ^ (c.W - 1) := by
  have hle : 2 ^ (c.E - 1) ≤ 2 ^ (c.W - 1) := Nat.pow_le_pow_right two_pos (by rw [Config.E]; omega)
  exact (Nat.sub_one_lt (by positivity)).trans_le hle

theorem bias_cast (c : Config) : (bias c : Int) = 2 ^ (c.E - 1) - 1 := Int.coe_nat_two_pow_pred _

/-! ## The exponent bias as a shifted pattern (R109) -/

/-- Shifting `n` ones right by `k` leaves `n − k` ones. -/
theorem two_pow_sub_one_shiftRight (n k : Nat) : (2 ^ n - 1) >>> k = 2 ^ (n - k) - 1 := by
  refine Nat.eq_of_testBit_eq fun i => ?_
  rw [Nat.testBit_shiftRight, Nat.testBit_two_pow_sub_one, Nat.testBit_two_pow_sub_one, decide_eq_decide]
  omega

theorem pat_bias_uval (c : Config) : (pat c.W (bias c)).uval = bias c := by
  have hlt : bias c < 2 ^ c.W := (bias_lt c).trans_le (Nat.pow_le_pow_right two_pos (Nat.sub_le _ _))
  exact_mod_cast pat_uval_of_nonneg (Int.natCast_nonneg (bias c)) (by exact_mod_cast hlt)

theorem pat_bias_eq_shifted_smax {c : Config} (hc : c.IntegerLegal) :
    pat c.W (bias c) = ⟨c.W, (pat c.W (smax c)).bits >>> (c.MB + 1)⟩ := by
  have hE : c.W - 1 - (c.MB + 1) = c.E - 1 := by rw [Config.E]; omega
  have hshift : ((pat c.W (smax c)).bits >>> (c.MB + 1)).toNat = bias c := by
    rw [BitVec.toNat_ushiftRight, ← Pattern.uval, pat_smax_uval hc, two_pow_sub_one_shiftRight, hE, bias]
  exact Pattern.ext_uval rfl ((pat_bias_uval c).trans hshift.symm)

/-! ## The statement -/

/-- Settles O36: the three scalars are representable, and the delivered bias is the pattern of the maximum shifted right. -/
theorem radixDigitsAndBiasScalars : Obligations.RadixDigitsAndBiasScalars := by
  refine ⟨fun c => ⟨?_, ?_, ?_⟩, fun s hl => ⟨?_, ?_, ?_⟩⟩
  · exact selectedBy_of_decodeOp (fun _ _ => rfl) c
  · exact selectedBy_of_decodeOp (fun _ _ => rfl) c
  · exact selectedBy_of_decodeOp (fun _ _ => rfl) c
  · have ⟨_, hMB, _⟩ := hl
    exact exec_scalar rfl rfl rfl hl (representable_of_le_mantissaDigits hl (Nat.succ_le_succ hMB))
  · exact exec_scalar rfl rfl rfl hl (representable_of_le_mantissaDigits hl le_rfl)
  · obtain ⟨t, ht, hint⟩ := exec_scalar (i := .fcExpBias) rfl rfl rfl hl (representable_natCast (bias_lt s.cfg))
    exact ⟨t, ht, bias_cast s.cfg ▸ hint, hint.y_eq_pat.trans (pat_bias_eq_shifted_smax hl.1)⟩

end Sys2Proof.Machine
end

section
/-! PROOFS. The family 60_exceptions: which outcome of the pure function is a failure, decided at the three detectors (R55, R65,
R74) that every integer operation goes through; so which operation raises Overflow (R122) and which DivideByZero (R123). -/
namespace Sys2Proof.Machine

/-! ## What each detector fails on -/

theorem unlessMinimum_value_eq_overflow {c : Config} {a p : Pattern} :
    unlessMinimum c a (.value p) = .overflow ↔ sval a = smin c := by
  simp [unlessMinimum]

theorem unlessMinimum_value_ne_divideByZero {c : Config} {a p : Pattern} :
    unlessMinimum c a (.value p) ≠ .divideByZero := by
  unfold unlessMinimum
  split <;> simp

theorem divisionGuard_value_eq_divideByZero {c : Config} {a b p : Pattern} :
    divisionGuard c a b (.value p) = .divideByZero ↔ sval b = 0 := by
  refine ⟨fun h => ?_, divisionGuard_zero⟩
  by_contra h0
  rw [divisionGuard, if_neg h0] at h
  split at h <;> cases h

theorem divisionGuard_value_eq_overflow {c : Config} {a b p : Pattern} :
    divisionGuard c a b (.value p) = .overflow ↔ sval a = smin c ∧ sval b = -1 := by
  refine ⟨fun h => ?_, fun ⟨ha, hb⟩ => divisionGuard_overflow ha hb⟩
  by_contra hex
  rw [divisionGuard, if_neg hex] at h
  split at h <;> cases h

/-- The answer of ABS behind its detector is a value, whatever the sign of the operand (R67). -/
theorem absAnswer_eq_unlessMinimum_value (c : Config) (a : Pattern) :
    ∃ p, absAnswer c a = unlessMinimum c a (.value p) :=
  ⟨_, congrArg (unlessMinimum c a) (apply_ite Answer.value _ _ _).symm⟩

/-! ## Which outcome is a failure -/

/-- An instance that can be given an integer operation on two operands is legal for it, and the operands fit. -/
theorem binaryFits_of_wellFormed {s : State} {a b : Pattern} {i : Instr} (hi : i.isLayout = false)
    (hops : i.operands = [a, b]) (h : i.wellFormed s.cfg = true) : BinaryFits s a b := by
  simpa [Instr.wellFormed, Instr.unitLegal, Instr.operandsFit, hi, hops, BinaryFits] using h

/-- R122: ADDU and SUBU have the one bound that can fail; every other row is the condition of the operation's detector. -/
theorem outcome_eq_overflow {s : State} {i : Instr} (h : i.wellFormed s.cfg = true) :
    outcome s.cfg i = .overflow ↔ OverflowCondition s.cfg i := by
  cases i with
  | add a b | sub a b | mul a b => exact checked_eq_overflow
  | addu a b =>
    have hmin : smin s.cfg ≤ sval a + b.uval := smin_le_sval_add_uval (binaryFits_of_wellFormed rfl rfl h)
    exact checked_eq_overflow.trans (not_representable_iff_smax_lt hmin)
  | subu a b =>
    have hmax : sval a - b.uval ≤ smax s.cfg := sval_sub_uval_le_smax (binaryFits_of_wellFormed rfl rfl h)
    exact checked_eq_overflow.trans (not_representable_iff_lt_smin hmax)
  | neg a => exact unlessMinimum_value_eq_overflow
  | abs a =>
    obtain ⟨p, hp⟩ := absAnswer_eq_unlessMinimum_value s.cfg a
    rw [outcome, hp]
    exact unlessMinimum_value_eq_overflow
  | div a b | rem a b | dive a b | reme a b => exact divisionGuard_value_eq_overflow
  | _ => exact iff_of_false nofun id

/-- R123: only the guard of the divider answers DivideByZero, and only on a zero divisor. -/
theorem outcome_eq_divideByZero {c : Config} {i : Instr} :
    outcome c i = .divideByZero ↔
      ∃ a b, (i = .div a b ∨ i = .rem a b ∨ i = .dive a b ∨ i = .reme a b) ∧ sval b = 0 := by
  constructor
  · intro h
    cases i with
    | add a b | sub a b | addu a b | subu a b | mul a b => exact absurd h checked_ne_divideByZero
    | neg a => exact absurd h unlessMinimum_value_ne_divideByZero
    | abs a =>
      obtain ⟨p, hp⟩ := absAnswer_eq_unlessMinimum_value c a
      exact absurd (hp.symm.trans h) unlessMinimum_value_ne_divideByZero
    | div a b | rem a b | dive a b | reme a b =>
      exact ⟨a, b, by simp, divisionGuard_value_eq_divideByZero.mp h⟩
    | _ => cases h
  · rintro ⟨a, b, rfl | rfl | rfl | rfl, h0⟩ <;> exact divisionGuard_zero h0

/-! ## The failure on the wires -/

theorem drive_flags_eq_overflow {s : State} {ans : Answer} :
    (s.drive ans).flags = (false, true, false) ↔ ans = .overflow := by
  rw [State.drive_flags]
  cases ans <;> simp [Answer.ok, Answer.ovf, Answer.dbz]

theorem drive_flags_eq_divideByZero {s : State} {ans : Answer} :
    (s.drive ans).flags = (false, false, true) ↔ ans = .divideByZero := by
  rw [State.drive_flags]
  cases ans <;> simp [Answer.ok, Answer.ovf, Answer.dbz]

/-! ## The statements -/

/-- Settles O13: the wires show Overflow exactly when the outcome is Overflow, so under the conditions of the table. -/
theorem overflowRaisedByAndOnlyBy : Obligations.OverflowRaisedByAndOnlyBy := by
  intro i s t ht
  obtain ⟨hw, rfl⟩ := exec_next ht
  have hout : outcome s.cfg i = .overflow ↔ OverflowCondition s.cfg i := outcome_eq_overflow hw
  refine ⟨drive_flags_eq_overflow.trans hout, fun hcond => ?_⟩
  rw [hout.mpr hcond]
  exact ⟨rfl, onlyOutputs_drive s .overflow⟩

/-- Settles O14: the wires show DivideByZero exactly when the outcome is DivideByZero, so at the divider's guard alone. -/
theorem divideByZeroRaisedByAndOnlyBy : Obligations.DivideByZeroRaisedByAndOnlyBy := by
  intro i s t ht
  obtain ⟨-, rfl⟩ := exec_next ht
  refine ⟨drive_flags_eq_divideByZero.trans outcome_eq_divideByZero, fun hflags => ?_⟩
  rw [drive_flags_eq_divideByZero.mp hflags]
  exact ⟨rfl, onlyOutputs_drive s .divideByZero⟩

end Sys2Proof.Machine
end

section
/-! PROOFS. The encoding, first half: the command word of R40 is its three fields side by side, so decoding the encoding of an
instruction gives it back, and a word that decodes is the word of its instruction but for the ports it ignores (R52). -/
namespace Sys2Proof

/-! ## The instruction and its encoding -/

/-- The op code and the ports the encoder writes select the instruction (R42 to R44). -/
theorem decodeOp_encode (i : Instr) : Laws.EncodedOp.Statement i := by
  cases i
  exacts [Laws.EncodedOp.add _ _, Laws.EncodedOp.sub _ _, Laws.EncodedOp.addu _ _, Laws.EncodedOp.subu _ _,
    Laws.EncodedOp.neg _, Laws.EncodedOp.abs _, Laws.EncodedOp.mul _ _, Laws.EncodedOp.div _ _, Laws.EncodedOp.rem _ _,
    Laws.EncodedOp.dive _ _, Laws.EncodedOp.reme _ _, Laws.EncodedOp.fcZero, Laws.EncodedOp.fcNegZero,
    Laws.EncodedOp.fcOne, Laws.EncodedOp.fcNegOne, Laws.EncodedOp.fcMinPositive, Laws.EncodedOp.fcMaxNegative,
    Laws.EncodedOp.fcMax, Laws.EncodedOp.fcMin, Laws.EncodedOp.fcMinPositiveSubnormal,
    Laws.EncodedOp.fcMaxNegativeSubnormal, Laws.EncodedOp.fcMaxSubnormal, Laws.EncodedOp.fcMinSubnormal,
    Laws.EncodedOp.fcInfinity, Laws.EncodedOp.fcNegInfinity, Laws.EncodedOp.fcNan, Laws.EncodedOp.fcNegNan,
    Laws.EncodedOp.fcRadix, Laws.EncodedOp.fcMantissaDigits, Laws.EncodedOp.fcExpBias, Laws.EncodedOp.fcMinExp,
    Laws.EncodedOp.fcMaxExp]

/-- Decoding the encoding of an instruction whose operands are whole ports gives it back. -/
theorem decode_encode {w : Nat} {i : Instr} (h : i.operandsFit w = true) : decode w (encode w i) = .instr i :=
  decode_eq_instr.mpr ⟨portA_width h, portB_width h, decodeOp_encode i w⟩

/-! ## The three fields of a command word (R40) -/

theorem two_pow_two_mul (w : Nat) : 2 ^ (2 * w) = 2 ^ w * 2 ^ w := by rw [two_mul, pow_add]

/-- A command word, with the `op` and `a` fields gathered above the field of `b`. -/
theorem Command.word_eq (w : Nat) (c : Command) : c.word w = (c.op.toNat * 2 ^ w + c.a.uval) * 2 ^ w + c.b.uval := by
  rw [Command.word, two_pow_two_mul]
  ring

theorem Command.word_div {w : Nat} {c : Command} (hb : c.b.width = w) :
    c.word w / 2 ^ w = c.op.toNat * 2 ^ w + c.a.uval := by
  have hlt : c.b.uval < 2 ^ w := hb ▸ c.b.uval_lt
  rw [Command.word_eq, mul_comm, Nat.mul_add_div (by positivity), Nat.div_eq_of_lt hlt, add_zero]

theorem Command.word_div_div {w : Nat} {c : Command} (ha : c.a.width = w) (hb : c.b.width = w) :
    c.word w / 2 ^ (2 * w) = c.op.toNat := by
  have hlt : c.a.uval < 2 ^ w := ha ▸ c.a.uval_lt
  rw [two_pow_two_mul, ← Nat.div_div_eq_div_mul, Command.word_div hb, mul_comm, Nat.mul_add_div (by positivity),
    Nat.div_eq_of_lt hlt, add_zero]

/-- The word of a command on ports of `w` bits has at most `2·w + 6` bits. -/
theorem Command.word_lt {w : Nat} {c : Command} (ha : c.a.width = w) (hb : c.b.width = w) :
    c.word w < 2 ^ (2 * w + 6) := by
  rw [pow_add, mul_comm, ← Nat.div_lt_iff_lt_mul (by positivity), Command.word_div_div ha hb]
  exact c.op.isLt

theorem upat_add_mul_two_pow (w k v : Nat) : upat w (k * 2 ^ w + v) = upat w v := by
  refine Pattern.ext_uval rfl ?_
  rw [upat_uval, upat_uval, Nat.mul_add_mod']

/-- The command read from the word of a command is that command. -/
theorem Command.ofWord_word {w : Nat} {c : Command} (ha : c.a.width = w) (hb : c.b.width = w) :
    Command.ofWord w (c.word w) = some c := by
  have hfield : ∀ k {p : Pattern}, p.width = w → upat w (k * 2 ^ w + p.uval) = p := fun k p hp => by
    rw [upat_add_mul_two_pow, upat_of_uval hp]
  rw [Command.ofWord, if_pos (Command.word_lt ha hb), Command.word_div_div ha hb, Command.word_div hb, hfield _ ha,
    Command.word_eq, hfield _ hb, BitVec.ofNat_toNat, BitVec.setWidth_eq]

theorem decodeWord_word {w : Nat} {c : Command} (ha : c.a.width = w) (hb : c.b.width = w) :
    decodeWord w (c.word w) = decode w c := by
  rw [decodeWord, Command.ofWord_word ha hb]

/-! ## From a word to its instruction and back -/

/-- A number that decodes is a command word whose command decodes. -/
theorem decodeWord_eq_instr {w n : Nat} {i : Instr} (h : decodeWord w n = .instr i) :
    n < 2 ^ (2 * w + 6) ∧ decodeOp (BitVec.ofNat 6 (n / 2 ^ (2 * w))) (upat w (n / 2 ^ w)) (upat w n) = some i := by
  rw [decodeWord, Command.ofWord] at h
  split_ifs at h with hn
  · exact ⟨hn, (decode_eq_instr.mp h).2.2⟩

/-- The ports the encoder writes for a decoded instruction: as many of the two ports of the command as the operation has
operands, and zeros on the others (R52). -/
theorem ports_of_decodeOp {op : OpCode} {a b : Pattern} {i : Instr} (w : Nat) (h : decodeOp op a b = some i) :
    i.operands.length = 2 ∧ i.portA w = a ∧ i.portB w = b
      ∨ i.operands.length = 1 ∧ i.portA w = a ∧ i.portB w = .zeros w
      ∨ i.operands.length = 0 ∧ i.portA w = .zeros w ∧ i.portB w = .zeros w := by
  unfold decodeOp at h
  split at h <;> cases h <;> simp [Instr.operands, Instr.portA, Instr.portB]

theorem encodeWord_eq (w : Nat) (i : Instr) :
    encodeWord w i = (i.opCode.toNat * 2 ^ w + (i.portA w).uval) * 2 ^ w + (i.portB w).uval :=
  Command.word_eq w (encode w i)

/-- The `op` field of a command word is all that stands above its two ports. -/
theorem op_field_toNat {w n : Nat} (h : n < 2 ^ (2 * w + 6)) :
    (BitVec.ofNat 6 (n / 2 ^ (2 * w))).toNat * 2 ^ w = n / 2 ^ w / 2 ^ w * 2 ^ w := by
  have hlt : n / 2 ^ (2 * w) < 2 ^ 6 := by
    rw [Nat.div_lt_iff_lt_mul (by positivity), mul_comm, ← pow_add]
    exact h
  rw [BitVec.toNat_ofNat, Nat.mod_eq_of_lt hlt, two_pow_two_mul, Nat.div_div_eq_div_mul]

/-! ## The statements -/

/-- Settles O2: the word of a command holds its op code and its ports side by side, so each is read back from it. -/
theorem decodeOfEncodeIsTheInstruction : Obligations.DecodeOfEncodeIsTheInstruction := by
  intro c i hw
  have hfit : i.operandsFit c.W = true := (Bool.and_eq_true_iff.mp hw).2
  have hd : decode c.W (encode c.W i) = .instr i := decode_encode hfit
  have ha : (encode c.W i).a.width = c.W := portA_width hfit
  have hb : (encode c.W i).b.width = c.W := portB_width hfit
  exact ⟨hd, Command.word_lt ha hb, (decodeWord_word ha hb).trans hd⟩

/-- Settles O3: the encoder writes back the op field and the ports that are operands, and zeros below them. -/
theorem encodeOfDecodeKeepsEveryBitOfTheOperands : Obligations.EncodeOfDecodeKeepsEveryBitOfTheOperands := by
  intro w n i h
  obtain ⟨hn, hop⟩ := decodeWord_eq_instr h
  rw [encodeWord_eq, opCode_of_decodeOp hop, op_field_toNat hn]
  obtain ⟨hlen, ha, hb⟩ | ⟨hlen, ha, hb⟩ | ⟨hlen, ha, hb⟩ := ports_of_decodeOp w hop
  · rw [hlen, ha, hb, upat_uval, upat_uval, Nat.div_add_mod', Nat.div_add_mod']
    simp
  · rw [hlen, ha, hb, upat_uval, Nat.div_add_mod', Pattern.zeros_uval]
    simp
  · rw [hlen, ha, hb, Pattern.zeros_uval, Nat.div_div_eq_div_mul, two_pow_two_mul]
    simp [mul_assoc, ← two_pow_two_mul]

end Sys2Proof
end

section
/-! PROOFS. What an operation, a step and a run keep: `exec_next` and `step_next` say all that can happen, so each statement here
is about the outcome driven on the outputs. -/
namespace Sys2Proof.Machine

/-! ## The outcome on the wires -/

/-- The three patterns of the flags, with the cause number of each (R22, R124). -/
theorem drive_flags_cause (s : State) (ans : Answer) :
    (s.drive ans).flags = (true, false, false) ∧ (s.drive ans).cause = 0
      ∨ (s.drive ans).flags = (false, true, false) ∧ (s.drive ans).cause = 1
      ∨ (s.drive ans).flags = (false, false, true) ∧ (s.drive ans).cause = 2 := by
  cases ans with
  | value p => exact .inl ⟨rfl, rfl⟩
  | overflow => exact .inr (.inl ⟨rfl, rfl⟩)
  | divideByZero => exact .inr (.inr ⟨rfl, rfl⟩)

/-- `y` is `W` bits wide on a failure, and on a result when the result is. -/
theorem drive_y_width {s : State} {ans : Answer} (h : ∀ p, ans = .value p → p.width = s.cfg.W) :
    (s.drive ans).y.width = s.cfg.W := by
  cases ans with
  | value p => exact h p rfl
  | overflow => rfl
  | divideByZero => rfl

/-! ## A result is `W` bits wide -/

theorem widths_of_operandsFit {w : Nat} {i : Instr} {a b : Pattern} (hops : i.operands = [a, b])
    (h : i.operandsFit w = true) : a.width = w ∧ b.width = w := by
  simpa [Instr.operandsFit, hops] using h

theorem width_of_operandsFit {w : Nat} {i : Instr} {a : Pattern} (hops : i.operands = [a])
    (h : i.operandsFit w = true) : a.width = w := by
  simpa [Instr.operandsFit, hops] using h

theorem width_of_checked_eq_value {c : Config} {r : Int} {p : Pattern} (h : checked c r = .value p) : p.width = c.W := by
  unfold checked at h
  split at h <;> cases h
  exact pat_width c.W r

theorem width_of_unlessMinimum_eq_value {c : Config} {a q p : Pattern} (hq : q.width = c.W)
    (h : unlessMinimum c a (.value q) = .value p) : p.width = c.W := by
  unfold unlessMinimum at h
  split at h <;> cases h
  exact hq

theorem width_of_divisionGuard_eq_value {c : Config} {a b q p : Pattern} (hq : q.width = c.W)
    (h : divisionGuard c a b (.value q) = .value p) : p.width = c.W := by
  unfold divisionGuard at h
  split_ifs at h
  cases h
  exact hq

/-- The value of an operation whose operands are whole ports is a whole port (R33). -/
theorem width_of_outcome_eq_value {c : Config} {i : Instr} {p : Pattern} (hfit : i.operandsFit c.W = true)
    (h : outcome c i = .value p) : p.width = c.W := by
  cases i with
  | add a b | sub a b | addu a b | subu a b | mul a b => exact width_of_checked_eq_value h
  | neg a => exact width_of_unlessMinimum_eq_value (pat_width c.W _) h
  | abs a =>
    have ha : a.width = c.W := width_of_operandsFit rfl hfit
    rw [outcome, absAnswer, ← apply_ite Answer.value] at h
    refine width_of_unlessMinimum_eq_value ?_ h
    split
    · exact pat_width c.W _
    · exact ha
  | div a b | rem a b | dive a b | reme a b => exact width_of_divisionGuard_eq_value (pat_width c.W _) h
  | _ =>
    cases h
    rfl

theorem drive_outcome_y_width {s : State} {i : Instr} (hw : i.wellFormed s.cfg = true) :
    (s.drive (outcome s.cfg i)).y.width = s.cfg.W :=
  drive_y_width fun _ => width_of_outcome_eq_value (Bool.and_eq_true_iff.mp hw).2

/-! ## The invariant -/

/-- A state whose output ports hold the outcome of the command on its input ports meets the invariant. -/
theorem inv_drive_outcome {s : State} {i : Instr} (hc : s.cfg.IntegerLegal)
    (hd : decode s.cfg.W ⟨s.op, s.a, s.b⟩ = .instr i) (hw : i.wellFormed s.cfg = true) :
    (s.drive (outcome s.cfg i)).Inv := by
  obtain ⟨ha, hb, -⟩ := decode_eq_instr.mp hd
  simp only [State.Inv, State.drive_cfg, State.drive_op, State.drive_a, State.drive_b, State.drive_answer]
  exact ⟨hc, ha, hb, drive_outcome_y_width hw, i, hd, rfl⟩

/-- Before any command the outputs are those of `ADD 0, 0`. -/
theorem inv_powerUp {c : Config} (hc : c.IntegerLegal) : (State.powerUp c).Inv := by
  refine ⟨hc, rfl, rfl, rfl, .add (.zeros c.W) (.zeros c.W), decode_eq_instr.mpr ⟨rfl, rfl, rfl⟩, ?_⟩
  have hsum : outcome c (.add (.zeros c.W) (.zeros c.W)) = .value (.zeros c.W) := by
    rw [outcome, addAnswer, sval_zeros, add_zero, checked_of_representable (representable_zero c), ← sval_zeros c.W,
      pat_sval (Pattern.zeros_width c.W)]
  rw [State.powerUp_cfg, hsum]
  rfl

/-! ## A run -/

/-- The first command of a program that is accepted: a step takes it, shows its outcome and leaves the rest. -/
theorem step_of_accepted {s : State} {cmd : Command} {rest : List Command} (hp : s.pending = cmd :: rest)
    (h : ∀ o ∈ outcomes s.cfg (cmd :: rest), o ≠ none) :
    ∃ t, step s = .next t ∧ t.cfg = s.cfg ∧ t.pending = rest
      ∧ outcomes s.cfg (cmd :: rest) = t.answer :: outcomes s.cfg rest := by
  rw [outcomes, List.map_cons, ← outcomes] at h ⊢
  have hhead := h _ (List.mem_cons_self ..)
  cases hd : decode s.cfg.W cmd with
  | rejected e => simp [hd] at hhead
  | instr i =>
    have hw : i.wellFormed s.cfg = true := by
      by_contra hn
      simp [hd, hn] at hhead
    refine ⟨(s.present cmd rest).drive (outcome s.cfg i), ?_, by simp, by simp, by simp [hw]⟩
    rw [step_of_pending hp, transact_of_instr hd, exec_of_wellFormed (s := s.present cmd rest) hw, State.present_cfg]

theorem step_of_no_command {s : State} (h : s.pending = []) : step s = .refused .noCommand := by rw [step, h]

theorem shown_succ {s t : State} (h : step s = .next t) (k : Nat) : shown s (k + 1) = t.answer :: shown t k := by
  rw [shown, h]

theorem run_succ {M : Host.Core} {s t : M.State} (h : M.step s = .next t) (k : Nat) : M.run (k + 1) s = M.run k t := by
  rw [Host.Core.run, h]

/-- A run of a program that is accepted shows the outcomes of its commands and ends with none left. -/
theorem run_of_accepted (cmds : List Command) (s : State) (hp : s.pending = cmds)
    (h : ∀ o ∈ outcomes s.cfg cmds, o ≠ none) :
    shown s cmds.length = outcomes s.cfg cmds
      ∧ ∃ t : State, Host.Core.run core cmds.length s = .next t ∧ t.cfg = s.cfg ∧ t.pending = [] := by
  induction cmds generalizing s with
  | nil => exact ⟨rfl, s, rfl, rfl, hp⟩
  | cons cmd rest ih =>
    obtain ⟨t, ht, hcfg, hrest, hout⟩ := step_of_accepted hp h
    rw [hout, List.length_cons, shown_succ ht, run_succ (M := core) ht, ← hcfg]
    rw [hout, List.forall_mem_cons, ← hcfg] at h
    obtain ⟨hshown, hrun⟩ := ih t hrest h.2
    exact ⟨congrArg _ hshown, hrun⟩

/-! ## The statements -/

/-- Settles O6: a step is the transaction of the head of the host's list. -/
theorem stepRunsTheDecodedInstruction : Obligations.StepRunsTheDecodedInstruction :=
  ⟨fun _ _ rest _ hp hd => (step_of_pending hp).trans (transact_of_instr hd rest), fun _ => step_of_no_command⟩

/-- Settles O7: the ports before any command are those of a sum of zeros. -/
theorem invariantHoldsAtReset : Obligations.InvariantHoldsAtReset :=
  ⟨fun _ => inv_powerUp, inv_powerUp (by decide)⟩

/-- Settles O8: a step presents a command that decodes, and drives its outcome. -/
theorem everyStepKeepsTheInvariant : Obligations.EveryStepKeepsTheInvariant := by
  intro s t hinv ht
  obtain ⟨cmd, rest, i, -, hd, hw, rfl⟩ := step_next ht
  obtain ⟨hc, -⟩ := hinv
  exact inv_drive_outcome (s := s.present cmd rest) hc hd hw

/-- Settles O9: each of the three outcomes drives its own pattern. -/
theorem exactlyOneFlagPatternAfterEveryOperation : Obligations.ExactlyOneFlagPatternAfterEveryOperation := by
  intro i s t ht
  obtain ⟨-, rfl⟩ := exec_next ht
  refine ⟨?_, ?_, drive_flags_cause s _⟩ <;> cases outcome s.cfg i <;> simp

/-- Settles O10: driving the outputs moves nothing else. -/
theorem everyOperationDrivesOnlyTheOutputs : Obligations.EveryOperationDrivesOnlyTheOutputs := by
  intro i s t ht
  obtain ⟨hw, rfl⟩ := exec_next ht
  refine ⟨onlyOutputs_drive s _, drive_outcome_y_width hw, ?_⟩
  rw [State.drive_draws, State.drive_ok]

/-- Settles O11: the command taken is the one on the input ports, and it decoded, so both its operands are whole ports. -/
theorem stepKeepsParametersAndTakesOneCommand : Obligations.StepKeepsParametersAndTakesOneCommand := by
  intro s t ht
  obtain ⟨cmd, rest, i, hp, hd, -, rfl⟩ := step_next ht
  obtain ⟨ha, hb, -⟩ := decode_eq_instr.mp hd
  simp [hp, ha, hb]

/-- Settles O12: the two tests of a transaction come before its outcome, the parameters first. -/
theorem operationsCompleteExactlyOnLegalInstances : Obligations.OperationsCompleteExactlyOnLegalInstances :=
  fun _ s => ⟨fun hw => ⟨_, exec_of_wellFormed hw, State.drive_answer s _⟩, exec_illegal, exec_unfit⟩

/-- Settles O54: by induction on the program, each step shows the outcome of the command it takes. -/
theorem runOfAProgramIsTheListOfItsOutcomes : Obligations.RunOfAProgramIsTheListOfItsOutcomes := by
  intro s cmds hp h
  obtain ⟨hshown, t, hrun, hcfg, hnone⟩ := run_of_accepted cmds s hp h
  exact ⟨hshown, t, hrun, hcfg, step_of_no_command hnone⟩

end Sys2Proof.Machine
end

section
/-! PROOFS. The encoding, second half: which op codes are reserved (R49), and that the machine refuses those and no other
(R50). -/
namespace Sys2Proof.Machine

/-! ## Defined and reserved op codes -/

/-- Whether an op code is defined does not depend on the ports (R47). -/
theorem isSome_decodeOp (op : OpCode) (a b : Pattern) : (decodeOp op a b).isSome = op.isDefined := by
  unfold OpCode.isDefined decodeOp
  split <;> rfl

/-- The three runs of reserved codes (R49). -/
theorem isDefined_eq_false_iff : ∀ op : BitVec 6, OpCode.isDefined op = false ↔
    op.toNat = 0x07 ∨ (0x0C ≤ op.toNat ∧ op.toNat ≤ 0x1F) ∨ 0x35 ≤ op.toNat := by
  decide

theorem decode_of_not_isDefined {w : Nat} {cmd : Command} (ha : cmd.a.width = w) (hb : cmd.b.width = w)
    (h : cmd.op.isDefined = false) : decode w cmd = .rejected (.reservedOpCode cmd.op) := by
  rw [← isSome_decodeOp cmd.op cmd.a cmd.b, Option.isSome_eq_false_iff, Option.isNone_iff_eq_none] at h
  rw [decode, if_pos ⟨ha, hb⟩, h]

theorem decode_of_isDefined {w : Nat} {cmd : Command} (ha : cmd.a.width = w) (hb : cmd.b.width = w)
    (h : cmd.op.isDefined = true) : ∃ i, decode w cmd = .instr i := by
  rw [← isSome_decodeOp cmd.op cmd.a cmd.b, Option.isSome_iff_exists] at h
  obtain ⟨i, hi⟩ := h
  exact ⟨i, decode_eq_instr.mpr ⟨ha, hb, hi⟩⟩

/-- No operation refuses as a reserved op code does. -/
theorem exec_ne_reserved (i : Instr) (s : State) (op : OpCode) : exec i s ≠ .refused (.reservedOpCode op) := by
  rw [exec_eq]
  split_ifs <;> simp

/-! ## The statements -/

/-- Settles O1: the decoder runs on each word. -/
theorem decodeReadsTheWordsOfTheSpec : Obligations.DecodeReadsTheWordsOfTheSpec := by
  unfold Obligations.DecodeReadsTheWordsOfTheSpec
  decide

/-- Settles O5: the decoder rejects exactly the codes that are not defined, and an operation that is run never refuses so. -/
theorem reservedOpCodesAndOnlyTheyAreRefused : Obligations.ReservedOpCodesAndOnlyTheyAreRefused := by
  intro s cmd rest hp ha hb
  rw [step_of_pending hp]
  split
  case isTrue hres =>
    have hd := decode_of_not_isDefined ha hb ((isDefined_eq_false_iff cmd.op).mpr hres)
    exact ⟨hd, transact_of_rejected hd rest⟩
  case isFalse hres =>
    have hdef : cmd.op.isDefined = true := by rwa [← isDefined_eq_false_iff, Bool.not_eq_false] at hres
    obtain ⟨i, hd⟩ := decode_of_isDefined ha hb hdef
    rw [transact_of_instr hd]
    exact ⟨⟨i, hd⟩, exec_ne_reserved i _ cmd.op⟩

end Sys2Proof.Machine
end

section
/-! PROOFS. The Euclidean pair: any quotient and remainder with the remainder in range are that pair (R80), so its other
descriptions are instances of one lemma; then DIVE and REME behind the guard (R81, R82). -/
namespace Sys2Proof.Machine

/-! ## The Euclidean pair by its remainder (R80) -/

theorem euclidRemainder_lt_abs (n : Int) {d : Int} (hd : d ≠ 0) : euclidRemainder n d < |d| := Int.emod_lt_abs n hd

theorem dvd_sub_euclidRemainder (n d : Int) : d ∣ n - euclidRemainder n d := Int.dvd_self_sub_emod

/-- The remainder in range is one number. -/
theorem euclidRemainder_unique {n d r : Int} (h0 : 0 ≤ r) (hlt : r < |d|) (hdvd : d ∣ n - r) : r = euclidRemainder n d := by
  calc r = r % |d| := (Int.emod_eq_of_lt h0 hlt).symm
    _ = r % d := Int.emod_abs r d
    _ = n % d := Int.modEq_iff_dvd.mpr hdvd

/-- A quotient with the remainder it leaves in range is the Euclidean pair. -/
theorem euclid_pair_of_range {n d q r : Int} (h0 : 0 ≤ r) (hlt : r < |d|) (h : n = d * q + r) :
    euclidQuotient n d = q ∧ euclidRemainder n d = r := by
  have hd : d ≠ 0 := abs_pos.mp (h0.trans_lt hlt)
  have hr : r = euclidRemainder n d := euclidRemainder_unique h0 hlt ⟨q, by omega⟩
  have hq : d * euclidQuotient n d = d * q := by rw [mul_euclidQuotient, ← hr]; omega
  exact ⟨mul_left_cancel₀ hd hq, hr.symm⟩

/-- The pair as a step from the truncating pair: none where the truncating remainder is in range, otherwise one divisor up. -/
theorem euclid_pair_eq_step (n : Int) {d : Int} (hd : d ≠ 0) :
    if 0 ≤ truncRemainder n d then euclidQuotient n d = truncQuotient n d ∧ euclidRemainder n d = truncRemainder n d
    else if 0 < d then euclidQuotient n d = truncQuotient n d - 1 ∧ euclidRemainder n d = truncRemainder n d + d
    else euclidQuotient n d = truncQuotient n d + 1 ∧ euclidRemainder n d = truncRemainder n d - d := by
  have hn : d * truncQuotient n d = n - truncRemainder n d := mul_truncQuotient n d
  obtain ⟨hlo, hhi⟩ := abs_lt.mp (abs_truncRemainder_lt n hd)
  split_ifs with hr hpos
  · exact euclid_pair_of_range hr hhi (by omega)
  · rw [abs_of_pos hpos] at hlo
    exact euclid_pair_of_range (by omega) (by rw [abs_of_pos hpos]; omega) (by rw [mul_sub]; omega)
  · rw [abs_of_nonpos (not_lt.mp hpos)] at hlo
    exact euclid_pair_of_range (by omega) (by rw [abs_of_nonpos (not_lt.mp hpos)]; omega) (by rw [mul_add]; omega)

theorem euclidQuotient_eq_floor (n : Int) {d : Int} (hd : 0 < d) : euclidQuotient n d = ⌊(n : ℚ) / d⌋ := by
  have h := mul_euclidQuotient n d
  have h0 := euclidRemainder_nonneg n hd.ne'
  have hlt := euclidRemainder_lt_abs n hd.ne'
  rw [abs_of_pos hd] at hlt
  have hd' : (0 : ℚ) < d := by exact_mod_cast hd
  refine (Int.floor_eq_iff.mpr ⟨?_, ?_⟩).symm
  · rw [le_div_iff₀ hd']
    exact_mod_cast (by linarith : euclidQuotient n d * d ≤ n)
  · rw [div_lt_iff₀ hd']
    exact_mod_cast (by linarith : n < (euclidQuotient n d + 1) * d)

theorem euclidQuotient_eq_ceil (n : Int) {d : Int} (hd : d < 0) : euclidQuotient n d = ⌈(n : ℚ) / d⌉ := by
  have h := mul_euclidQuotient n d
  have h0 := euclidRemainder_nonneg n hd.ne
  have hlt := euclidRemainder_lt_abs n hd.ne
  rw [abs_of_neg hd] at hlt
  have hd' : (d : ℚ) < 0 := by exact_mod_cast hd
  refine (Int.ceil_eq_iff.mpr ⟨?_, ?_⟩).symm
  · rw [lt_div_iff_of_neg hd']
    exact_mod_cast (by linarith : n < (euclidQuotient n d - 1) * d)
  · rw [div_le_iff_of_neg hd']
    exact_mod_cast (by linarith : euclidQuotient n d * d ≤ n)

/-! ## The statements -/

/-- Settles O28: the step, the floor and the ceiling leave a remainder in range, and there is one. -/
theorem euclideanPairIsDefinedByItsRemainder : Obligations.EuclideanPairIsDefinedByItsRemainder := by
  intro n d hd
  refine ⟨⟨euclidRemainder_nonneg n hd, euclidRemainder_lt_abs n hd, dvd_sub_euclidRemainder n d⟩,
    fun r h0 hlt hdvd => euclidRemainder_unique h0 hlt hdvd, ?_, euclid_pair_eq_step n hd,
    euclidQuotient_eq_floor n, euclidQuotient_eq_ceil n⟩
  rw [mul_euclidQuotient, sub_add_cancel]

/-- Settles O26: what DIVE delivers behind the guard leaves the Euclidean remainder. -/
theorem diveDeliversTheEuclideanQuotient : Obligations.DiveDeliversTheEuclideanQuotient := by
  refine ⟨fun c a b ha hb => decode_eq_instr.mpr ⟨ha, hb, rfl⟩, fun s a b h => ?_⟩
  have ⟨hc, ha, hb⟩ := h
  refine exec_guarded rfl rfl rfl h fun h0 hex => ⟨?_, rfl, ?_⟩
  · exact representable_euclidQuotient (representable_sval hc ha) (representable_sval hc hb) h0 hex
  · rw [mul_euclidQuotient, sub_sub_cancel]
    exact ⟨euclidRemainder_nonneg (sval a) h0, euclidRemainder_lt_abs (sval a) h0⟩

/-- Settles O27: the Euclidean remainder is smaller than the divisor and not negative, so REME delivers it with a clear sign. -/
theorem remeDeliversTheEuclideanRemainder : Obligations.RemeDeliversTheEuclideanRemainder := by
  refine ⟨fun c a b ha hb => decode_eq_instr.mpr ⟨ha, hb, rfl⟩, fun s a b h => ?_⟩
  have ⟨hc, _, hb⟩ := h
  have hguard := exec_guarded (i := .reme a b) (P := fun r => r = euclidRemainder (sval a) (sval b)) rfl rfl rfl h
    fun h0 _ => ⟨representable_euclidRemainder (sval a) (representable_sval hc hb) h0, rfl⟩
  split_ifs at hguard ⊢ with h0
  · exact hguard
  · exact hguard
  · obtain ⟨t, r, ht, hdel, rfl⟩ := hguard
    have ⟨_, _, _, hval⟩ := hdel
    have hnonneg : 0 ≤ euclidRemainder (sval a) (sval b) := euclidRemainder_nonneg (sval a) h0
    exact ⟨t, _, ht, hdel, rfl, dvd_sub_euclidRemainder _ _, hnonneg, euclidRemainder_lt_abs _ h0,
      (signBit_eq_false_iff_nonneg _).mpr (hval ▸ hnonneg)⟩

end Sys2Proof.Machine
end

section
/-! PROOFS. The constant patterns of the layout builder: what `fpack` puts in the three fields is what is read back from them
(R86), so each constant delivers the fields its rule gives it (R89 to R104). -/
namespace Sys2Proof
open Sys2Proof.Machine

/-! ## The widths of the fields and the numbers that fill them -/

theorem Config.LayoutLegal.one_le_MB {c : Config} (hl : c.LayoutLegal) : 1 ≤ c.MB := by
  obtain ⟨-, h, -⟩ := hl
  exact h

theorem Config.LayoutLegal.payload_pos {c : Config} (hl : c.LayoutLegal) : 1 ≤ c.NAN_PAYLOAD := by
  obtain ⟨-, -, -, h, -⟩ := hl
  exact h

theorem Config.LayoutLegal.payload_lt {c : Config} (hl : c.LayoutLegal) : c.NAN_PAYLOAD < 2 ^ c.MB := by
  obtain ⟨-, -, -, -, h⟩ := hl
  exact h

/-- The exponent field has at least two bits (R6). -/
theorem Config.LayoutLegal.two_le_E {c : Config} (hl : c.LayoutLegal) : 2 ≤ c.E := by
  obtain ⟨-, -, hW, -⟩ := hl
  rw [Config.E]
  omega

/-- Mantissa, exponent and sign fill the word (R6, R86). -/
theorem Config.LayoutLegal.W_eq {c : Config} (hl : c.LayoutLegal) : c.W = c.MB + c.E + 1 := by
  obtain ⟨-, -, hW, -⟩ := hl
  rw [Config.E]
  omega

/-- The weight of the sign bit is the number of patterns below it, exponents by mantissas. -/
theorem Config.LayoutLegal.two_pow_W_pred {c : Config} (hl : c.LayoutLegal) : 2 ^ (c.W - 1) = 2 ^ c.E * 2 ^ c.MB := by
  rw [hl.W_eq, Nat.add_sub_cancel, pow_add, mul_comm]

theorem mantOnes_add_one (c : Config) : mantOnes c + 1 = 2 ^ c.MB := Nat.sub_add_cancel Nat.one_le_two_pow

theorem mantOnes_lt (c : Config) : mantOnes c < 2 ^ c.MB := by have := mantOnes_add_one c; omega

theorem Config.LayoutLegal.one_le_mantOnes {c : Config} (hl : c.LayoutLegal) : 1 ≤ mantOnes c := by
  have hpow : 2 ^ 1 ≤ 2 ^ c.MB := Nat.pow_le_pow_right two_pos hl.one_le_MB
  have := mantOnes_add_one c
  omega

theorem bias_add_one (c : Config) : bias c + 1 = 2 ^ (c.E - 1) := Nat.sub_add_cancel Nat.one_le_two_pow

theorem Config.LayoutLegal.one_le_bias {c : Config} (hl : c.LayoutLegal) : 1 ≤ bias c := by
  have hpow : 2 ^ 1 ≤ 2 ^ (c.E - 1) := Nat.pow_le_pow_right two_pos (by have := hl.two_le_E; omega)
  have := bias_add_one c
  omega

theorem expOnes_add_one (c : Config) : expOnes c + 1 = 2 ^ c.E := Nat.sub_add_cancel Nat.one_le_two_pow

/-- The exponent of all ones is twice the bias and one more. -/
theorem Config.LayoutLegal.expOnes_eq {c : Config} (hl : c.LayoutLegal) : expOnes c = 2 * bias c + 1 := by
  have hE : c.E = c.E - 1 + 1 := by have := hl.two_le_E; omega
  have h := expOnes_add_one c
  rw [hE, pow_succ, ← bias_add_one] at h
  omega

theorem expOnes_lt (c : Config) : expOnes c < 2 ^ c.E := by have := expOnes_add_one c; omega

theorem Config.LayoutLegal.one_lt_two_pow_MB {c : Config} (hl : c.LayoutLegal) : 1 < 2 ^ c.MB :=
  hl.one_le_mantOnes.trans_lt (mantOnes_lt c)

theorem Config.LayoutLegal.bias_lt_two_pow_E {c : Config} (hl : c.LayoutLegal) : bias c < 2 ^ c.E := by
  have := hl.expOnes_eq
  have := expOnes_lt c
  omega

theorem Config.LayoutLegal.one_lt_two_pow_E {c : Config} (hl : c.LayoutLegal) : 1 < 2 ^ c.E :=
  hl.one_le_bias.trans_lt hl.bias_lt_two_pow_E

theorem expOnes_pred_lt (c : Config) : expOnes c - 1 < 2 ^ c.E := (Nat.sub_le _ _).trans_lt (expOnes_lt c)

end Sys2Proof

namespace Sys2Proof.Machine

/-! ## The fields of a packed pattern (R86) -/

/-- The exponent and mantissa fields lie below the sign bit. -/
theorem fields_lt {c : Config} {e m : Nat} (hl : c.LayoutLegal) (he : e < 2 ^ c.E) (hm : m < 2 ^ c.MB) :
    e * 2 ^ c.MB + m < 2 ^ (c.W - 1) := by
  calc e * 2 ^ c.MB + m < (e + 1) * 2 ^ c.MB := by rw [add_mul, one_mul]; omega
    _ ≤ 2 ^ c.E * 2 ^ c.MB := Nat.mul_le_mul_right _ he
    _ = 2 ^ (c.W - 1) := hl.two_pow_W_pred.symm

theorem two_pow_W {c : Config} (hc : c.IntegerLegal) : 2 ^ c.W = 2 * 2 ^ (c.W - 1) := by
  exact_mod_cast two_pow_pred (W_pos hc)

theorem fpack_uval {c : Config} {e m : Nat} (hl : c.LayoutLegal) (σ : Bool) (he : e < 2 ^ c.E) (hm : m < 2 ^ c.MB) :
    (fpack c σ e m).uval = σ.toNat * 2 ^ (c.W - 1) + e * 2 ^ c.MB + m := by
  have hlow := fields_lt hl he hm
  have hW := two_pow_W hl.1
  refine upat_uval_of_lt ?_
  cases σ <;> simp <;> omega

theorem signField_fpack {c : Config} {e m : Nat} (hl : c.LayoutLegal) (σ : Bool) (he : e < 2 ^ c.E) (hm : m < 2 ^ c.MB) :
    signField c (fpack c σ e m) = σ := by
  have hlow := fields_lt hl he hm
  have hsign : signField c (fpack c σ e m) = decide (2 ^ (c.W - 1) ≤ (fpack c σ e m).uval) := signBit_eq (fpack c σ e m)
  rw [hsign, fpack_uval hl σ he hm]
  cases σ <;> simp <;> omega

theorem expField_eq (c : Config) (p : Pattern) : expField c p = p.uval / 2 ^ c.MB % 2 ^ c.E := by
  rw [expField, BitVec.extractLsb'_toNat, Nat.shiftRight_eq_div_pow, Pattern.uval]

theorem mantField_eq (c : Config) (p : Pattern) : mantField c p = p.uval % 2 ^ c.MB := by
  rw [mantField, BitVec.extractLsb'_toNat, Nat.shiftRight_zero, Pattern.uval]

/-- The sign bit is a multiple of both field weights. -/
theorem fpack_uval_eq_mul {c : Config} {e m : Nat} (hl : c.LayoutLegal) (σ : Bool) (he : e < 2 ^ c.E) (hm : m < 2 ^ c.MB) :
    (fpack c σ e m).uval = (σ.toNat * 2 ^ c.E + e) * 2 ^ c.MB + m := by
  rw [fpack_uval hl σ he hm, hl.two_pow_W_pred]
  ring

theorem expField_fpack {c : Config} {e m : Nat} (hl : c.LayoutLegal) (σ : Bool) (he : e < 2 ^ c.E) (hm : m < 2 ^ c.MB) :
    expField c (fpack c σ e m) = e := by
  rw [expField_eq, fpack_uval_eq_mul hl σ he hm, mul_comm, Nat.mul_add_div (by positivity), Nat.div_eq_of_lt hm, add_zero,
    Nat.mul_add_mod', Nat.mod_eq_of_lt he]

theorem mantField_fpack {c : Config} {e m : Nat} (hl : c.LayoutLegal) (σ : Bool) (he : e < 2 ^ c.E) (hm : m < 2 ^ c.MB) :
    mantField c (fpack c σ e m) = m := by
  rw [mantField_eq, fpack_uval_eq_mul hl σ he hm, Nat.mul_add_mod', Nat.mod_eq_of_lt hm]

/-! ## The structure of the op code of a constant (R41, R43) -/

/-- The exponent and mantissa fields of a constant pattern, by the class in `op[3:1]` (R43, R89 to R104). -/
def constantFields (c : Config) (k : BitVec 3) : Nat × Nat :=
  match k with
  | 0#3 => (0, 0)
  | 1#3 => (bias c, 0)
  | 2#3 => (1, 0)
  | 3#3 => (expOnes c - 1, mantOnes c)
  | 4#3 => (0, 1)
  | 5#3 => (0, mantOnes c)
  | 6#3 => (expOnes c, 0)
  | _ => (expOnes c, c.NAN_PAYLOAD)

theorem constantFields_fit {c : Config} (hl : c.LayoutLegal) (k : BitVec 3) :
    (constantFields c k).1 < 2 ^ c.E ∧ (constantFields c k).2 < 2 ^ c.MB := by
  have hE : 0 < 2 ^ c.E := by positivity
  have hMB : 0 < 2 ^ c.MB := by positivity
  unfold constantFields
  split
  · exact ⟨hE, hMB⟩
  · exact ⟨hl.bias_lt_two_pow_E, hMB⟩
  · exact ⟨hl.one_lt_two_pow_E, hMB⟩
  · exact ⟨expOnes_pred_lt c, mantOnes_lt c⟩
  · exact ⟨hE, hl.one_lt_two_pow_MB⟩
  · exact ⟨hE, mantOnes_lt c⟩
  · exact ⟨expOnes_lt c, hMB⟩
  · exact ⟨expOnes_lt c, hl.payload_lt⟩

/-- A constant pattern is the fields of its class under the sign in `op[0]`. -/
theorem outcome_of_pattern_code {i : Instr} (c : Config) (h : i.opCode.extractLsb' 4 2 = 2#2) :
    outcome c i = .value (fpack c (OpCode.patternSign i.opCode) (constantFields c (OpCode.patternClass i.opCode)).1
      (constantFields c (OpCode.patternClass i.opCode)).2) := by
  cases i with
  | add a b | sub a b | addu a b | subu a b | neg a | abs a | mul a b | div a b | rem a b | dive a b | reme a b =>
    simp [Instr.opCode] at h
  | fcRadix | fcMantissaDigits | fcExpBias | fcMinExp | fcMaxExp => simp [Instr.opCode] at h
  | _ => rfl

theorem isLayout_eq_layoutGroup (i : Instr) : i.isLayout = OpCode.layoutGroup i.opCode := by
  cases i <;> simp [Instr.isLayout, Instr.opCode, OpCode.layoutGroup]

theorem pattern_code_iff : ∀ op : BitVec 6, op.extractLsb' 4 2 = 2#2 ↔ op.getLsbD 5 = true ∧ op.getLsbD 4 = false := by
  decide

/-! ## The contract of a constant pattern -/

theorem operands_of_isLayout {i : Instr} (h : i.isLayout = true) : i.operands = [] := by
  cases i <;> simp_all [Instr.isLayout, Instr.operands]

/-- R88: the operation of a constant pattern delivers the fields of its class under the sign in `op[0]`. -/
theorem exec_constant {s : State} {i : Instr} (h : i.opCode.extractLsb' 4 2 = 2#2) (hl : s.cfg.LayoutLegal) :
    ∃ t, exec i s = .next t ∧ DeliveredFields s t (OpCode.patternSign i.opCode)
      (constantFields s.cfg (OpCode.patternClass i.opCode)).1 (constantFields s.cfg (OpCode.patternClass i.opCode)).2 := by
  have hi : i.isLayout = true := by
    rw [isLayout_eq_layoutGroup]
    exact ((pattern_code_iff i.opCode).mp h).1
  obtain ⟨he, hm⟩ := constantFields_fit hl (OpCode.patternClass i.opCode)
  rw [exec_of_wellFormed (wellFormed_of_layoutLegal hi (operands_of_isLayout hi) hl), outcome_of_pattern_code _ h]
  exact ⟨_, rfl, onlyOutputs_drive s _, State.drive_flags s _, rfl, signField_fpack hl _ he hm, expField_fpack hl _ he hm,
    mantField_fpack hl _ he hm⟩

/-! ## The statements on the sixteen patterns -/

/-- Settles O29: both fields of class 0 are zero. -/
theorem zeroPatterns : Obligations.ZeroPatterns :=
  ⟨fun c => ⟨selectedBy_of_decodeOp (fun _ _ => rfl) c, selectedBy_of_decodeOp (fun _ _ => rfl) c⟩,
    fun _ hl => ⟨exec_constant (i := .fcZero) rfl hl, exec_constant (i := .fcNegZero) rfl hl⟩⟩

/-- Settles O30: class 1 has the bias in the exponent field. -/
theorem onePatterns : Obligations.OnePatterns :=
  ⟨fun c => ⟨selectedBy_of_decodeOp (fun _ _ => rfl) c, selectedBy_of_decodeOp (fun _ _ => rfl) c⟩,
    fun _ hl => ⟨exec_constant (i := .fcOne) rfl hl, exec_constant (i := .fcNegOne) rfl hl⟩⟩

/-- Settles O31: class 2 has exponent field 1. -/
theorem smallestNormalPatterns : Obligations.SmallestNormalPatterns :=
  ⟨fun c => ⟨selectedBy_of_decodeOp (fun _ _ => rfl) c, selectedBy_of_decodeOp (fun _ _ => rfl) c⟩,
    fun _ hl => ⟨exec_constant (i := .fcMinPositive) rfl hl, exec_constant (i := .fcMaxNegative) rfl hl⟩⟩

/-- Settles O32: class 3 has the exponent below all ones and a full mantissa. -/
theorem largestFinitePatterns : Obligations.LargestFinitePatterns :=
  ⟨fun c => ⟨selectedBy_of_decodeOp (fun _ _ => rfl) c, selectedBy_of_decodeOp (fun _ _ => rfl) c⟩,
    fun _ hl => ⟨exec_constant (i := .fcMax) rfl hl, exec_constant (i := .fcMin) rfl hl⟩⟩

/-- Settles O33: classes 4 and 5 have exponent field 0, with the smallest and the largest mantissa that is not zero. -/
theorem subnormalPatterns : Obligations.SubnormalPatterns :=
  ⟨fun c => ⟨selectedBy_of_decodeOp (fun _ _ => rfl) c, selectedBy_of_decodeOp (fun _ _ => rfl) c,
      selectedBy_of_decodeOp (fun _ _ => rfl) c, selectedBy_of_decodeOp (fun _ _ => rfl) c⟩,
    fun _ hl => ⟨exec_constant (i := .fcMinPositiveSubnormal) rfl hl, exec_constant (i := .fcMaxNegativeSubnormal) rfl hl,
      exec_constant (i := .fcMaxSubnormal) rfl hl, exec_constant (i := .fcMinSubnormal) rfl hl⟩⟩

/-- Settles O34: class 6 has the exponent of all ones and an empty mantissa. -/
theorem infinityPatterns : Obligations.InfinityPatterns :=
  ⟨fun c => ⟨selectedBy_of_decodeOp (fun _ _ => rfl) c, selectedBy_of_decodeOp (fun _ _ => rfl) c⟩,
    fun _ hl => ⟨exec_constant (i := .fcInfinity) rfl hl, exec_constant (i := .fcNegInfinity) rfl hl⟩⟩

/-- Settles O35: class 7 has the exponent of all ones and the payload. -/
theorem nanPatterns : Obligations.NanPatterns :=
  ⟨fun c => ⟨selectedBy_of_decodeOp (fun _ _ => rfl) c, selectedBy_of_decodeOp (fun _ _ => rfl) c⟩,
    fun _ hl => ⟨exec_constant (i := .fcNan) rfl hl, exec_constant (i := .fcNegNan) rfl hl⟩⟩

end Sys2Proof.Machine
end

section
/-! PROOFS. The constants beside one another: their encoding classes (R87), the sign bit of each pair and in the op code (R41,
R88), the range of the exponent (R110, R111), and their order as bit strings and as numbers (R113, R114, R117). -/
namespace Sys2Proof.Machine

/-! ## The range of the exponent (R110, R111) -/

theorem representable_two_sub_bias {c : Config} (hl : c.LayoutLegal) : Representable c (2 - (bias c : Int)) := by
  obtain ⟨-, htwo⟩ : Representable c ((2 : Nat) : Int) :=
    representable_of_le_mantissaDigits hl (Nat.succ_le_succ hl.one_le_MB)
  have hlt : (bias c : Int) < 2 ^ (c.W - 1) := by exact_mod_cast bias_lt c
  rw [Representable, smin]
  omega

theorem representable_bias_add_one {c : Config} (hl : c.LayoutLegal) : Representable c ((bias c : Int) + 1) := by
  have hlt : bias c + 1 < 2 ^ (c.W - 1) := by
    rw [bias_add_one]
    exact Nat.pow_lt_pow_right one_lt_two (by rw [hl.W_eq]; have := hl.two_le_E; have := hl.one_le_MB; omega)
  exact_mod_cast representable_natCast hlt

/-- Settles O37: both scalars are representable, and the bias is `2^(E−1) − 1`. -/
theorem exponentRangeScalars : Obligations.ExponentRangeScalars := by
  refine ⟨fun c => ⟨selectedBy_of_decodeOp (fun _ _ => rfl) c, selectedBy_of_decodeOp (fun _ _ => rfl) c⟩, fun s hl => ?_⟩
  have hbias := bias_cast s.cfg
  have hmin : (3 - 2 ^ (s.cfg.E - 1) : Int) = 2 - (bias s.cfg : Int) := by omega
  have hmax : (2 ^ (s.cfg.E - 1) : Int) = (bias s.cfg : Int) + 1 := by omega
  rw [hmin, hmax]
  exact ⟨exec_scalar rfl rfl rfl hl (representable_two_sub_bias hl), exec_scalar rfl rfl rfl hl (representable_bias_add_one hl)⟩

/-! ## The sign bit of a constant in its op code (R41, R88) -/

theorem isDefined_of_pattern_code : ∀ op : BitVec 6, op.extractLsb' 4 2 = 2#2 → OpCode.isDefined op = true := by decide

/-- Setting `op[0]` of a constant pattern keeps its class and sets its sign. -/
theorem pattern_code_or_one : ∀ op : BitVec 6, op.extractLsb' 4 2 = 2#2 →
    (op ||| 1#6).extractLsb' 4 2 = 2#2 ∧ OpCode.patternClass (op ||| 1#6) = OpCode.patternClass op
      ∧ OpCode.patternSign (op ||| 1#6) = true := by decide

/-- The command of a constant pattern delivers the fields of its class under its sign. -/
theorem decodeOp_of_pattern_code {op : OpCode} (c : Config) (a b : Pattern) (h : op.extractLsb' 4 2 = 2#2) :
    ∃ i, decodeOp op a b = some i ∧ outcome c i = .value (fpack c op.patternSign (constantFields c op.patternClass).1
      (constantFields c op.patternClass).2) := by
  obtain ⟨i, hi⟩ : ∃ i, decodeOp op a b = some i := by
    rw [← Option.isSome_iff_exists, isSome_decodeOp]
    exact isDefined_of_pattern_code op h
  obtain rfl := opCode_of_decodeOp hi
  exact ⟨i, hi, outcome_of_pattern_code c h⟩

/-- The sign bit alone. -/
theorem toNat_one_shiftLeft_top {w : Nat} (hw : 0 < w) : (1#w <<< (w - 1)).toNat = 2 ^ (w - 1) := by
  rw [BitVec.toNat_shiftLeft, BitVec.toNat_one hw, Nat.one_shiftLeft,
    Nat.mod_eq_of_lt (Nat.pow_lt_pow_right one_lt_two (by omega))]

/-- Packing a set sign is packing a clear one and setting bit `W−1`. -/
theorem fpack_true {c : Config} {e m : Nat} {p : BitVec c.W} (hl : c.LayoutLegal) (he : e < 2 ^ c.E) (hm : m < 2 ^ c.MB)
    (hp : fpack c false e m = ⟨c.W, p⟩) : fpack c true e m = ⟨c.W, p ||| (1#c.W <<< (c.W - 1))⟩ := by
  have hlow : e * 2 ^ c.MB + m < 2 ^ (c.W - 1) := fields_lt hl he hm
  have hbits : p.toNat = e * 2 ^ c.MB + m := by
    calc p.toNat = (fpack c false e m).uval := by rw [hp, Pattern.uval]
      _ = e * 2 ^ c.MB + m := by simp [fpack_uval hl false he hm]
  have hor := Nat.two_pow_add_eq_or_of_lt hlow 1
  rw [mul_one] at hor
  refine Pattern.ext_uval rfl ?_
  rw [fpack_uval hl true he hm, Pattern.uval, BitVec.toNat_or, toNat_one_shiftLeft_top (W_pos hl.1), hbits, Nat.or_comm,
    ← hor, Bool.toNat_true, one_mul, add_assoc]

/-! ## The statements on the sign -/

/-- Settles O4: a constant pattern packs its fields under `op[0]`. -/
theorem opCodeBitsSelectTheUnitAndTheSign : Obligations.OpCodeBitsSelectTheUnitAndTheSign := by
  intro c op a b i hi
  obtain rfl := opCode_of_decodeOp hi
  refine ⟨isLayout_eq_layoutGroup i, fun hl h5 h4 => ?_⟩
  obtain ⟨he, hm⟩ := constantFields_fit hl (OpCode.patternClass i.opCode)
  exact ⟨_, outcome_of_pattern_code c ((pattern_code_iff _).mpr ⟨h5, h4⟩), rfl, signField_fpack hl _ he hm⟩

/-- Settles O38: the two op codes of a class pack the same fields. -/
theorem negativeConstantIsThePositiveOneWithItsSign : Obligations.NegativeConstantIsThePositiveOneWithItsSign := by
  intro c op a b hl hop hclear
  obtain ⟨hop', hclass, hset⟩ := pattern_code_or_one op hop
  obtain ⟨he, hm⟩ := constantFields_fit hl op.patternClass
  obtain ⟨i, hi, hpos⟩ := decodeOp_of_pattern_code c a b hop
  obtain ⟨j, hj, hneg⟩ := decodeOp_of_pattern_code c a b hop'
  have hsign : op.patternSign = false := hclear
  rw [hsign] at hpos
  rw [hclass, hset, fpack_true hl he hm rfl] at hneg
  exact ⟨i, j, _, hi, hj, hpos, hneg⟩

/-! ## The encoding classes (R87) -/

theorem floatClass_of_exp_zero {c : Config} {m : Nat} (hl : c.LayoutLegal) (σ : Bool) (hm : m < 2 ^ c.MB) :
    floatClass c (fpack c σ 0 m) = if m = 0 then .zero else .subnormal := by
  have he : 0 < 2 ^ c.E := by positivity
  have hne : 0 ≠ expOnes c := by have := hl.expOnes_eq; omega
  rw [floatClass, expField_fpack hl σ he hm, mantField_fpack hl σ he hm, if_neg hne, if_pos rfl]

theorem floatClass_of_exp_between {c : Config} {e m : Nat} (hl : c.LayoutLegal) (σ : Bool) (h0 : 0 < e) (he : e < expOnes c)
    (hm : m < 2 ^ c.MB) : floatClass c (fpack c σ e m) = .normal := by
  rw [floatClass, expField_fpack hl σ (he.trans (expOnes_lt c)) hm, if_neg he.ne, if_neg h0.ne']

theorem floatClass_of_exp_ones {c : Config} {m : Nat} (hl : c.LayoutLegal) (σ : Bool) (hm : m < 2 ^ c.MB) :
    floatClass c (fpack c σ (expOnes c) m) = if m = 0 then .infinity else .nan := by
  rw [floatClass, expField_fpack hl σ (expOnes_lt c) hm, mantField_fpack hl σ (expOnes_lt c) hm, if_pos rfl]

theorem floatClass_zero {c : Config} (hl : c.LayoutLegal) (σ : Bool) : floatClass c (fpack c σ 0 0) = .zero :=
  (floatClass_of_exp_zero hl σ (by positivity)).trans (if_pos rfl)

theorem floatClass_subnormal {c : Config} {m : Nat} (hl : c.LayoutLegal) (σ : Bool) (h1 : 1 ≤ m) (hm : m < 2 ^ c.MB) :
    floatClass c (fpack c σ 0 m) = .subnormal :=
  (floatClass_of_exp_zero hl σ hm).trans (if_neg (by omega))

theorem floatClass_smallest_normal {c : Config} (hl : c.LayoutLegal) (σ : Bool) :
    floatClass c (fpack c σ 1 0) = .normal :=
  floatClass_of_exp_between hl σ one_pos (by have := hl.expOnes_eq; have := hl.one_le_bias; omega) (by positivity)

theorem floatClass_one {c : Config} (hl : c.LayoutLegal) (σ : Bool) : floatClass c (fpack c σ (bias c) 0) = .normal :=
  floatClass_of_exp_between hl σ hl.one_le_bias (by have := hl.expOnes_eq; omega) (by positivity)

theorem floatClass_largest_finite {c : Config} (hl : c.LayoutLegal) (σ : Bool) :
    floatClass c (fpack c σ (expOnes c - 1) (mantOnes c)) = .normal := by
  have hexp := hl.expOnes_eq
  have hbias := hl.one_le_bias
  exact floatClass_of_exp_between hl σ (by omega) (by omega) (mantOnes_lt c)

theorem floatClass_infinity {c : Config} (hl : c.LayoutLegal) (σ : Bool) :
    floatClass c (fpack c σ (expOnes c) 0) = .infinity :=
  (floatClass_of_exp_ones hl σ (by positivity)).trans (if_pos rfl)

theorem floatClass_nan {c : Config} (hl : c.LayoutLegal) (σ : Bool) :
    floatClass c (fpack c σ (expOnes c) c.NAN_PAYLOAD) = .nan :=
  (floatClass_of_exp_ones hl σ hl.payload_lt).trans (if_neg (by have := hl.payload_pos; omega))

/-- Settles O39: the class of a pattern is read from the fields packed in it. -/
theorem constantsLieInTheirEncodingClasses : Obligations.ConstantsLieInTheirEncodingClasses := fun c hl =>
  ⟨⟨floatClass_zero hl _, floatClass_zero hl _⟩, ⟨floatClass_one hl _, floatClass_one hl _⟩,
    ⟨floatClass_smallest_normal hl _, floatClass_smallest_normal hl _⟩,
    ⟨floatClass_largest_finite hl _, floatClass_largest_finite hl _⟩,
    ⟨floatClass_subnormal hl _ le_rfl hl.one_lt_two_pow_MB, floatClass_subnormal hl _ le_rfl hl.one_lt_two_pow_MB⟩,
    ⟨floatClass_subnormal hl _ hl.one_le_mantOnes (mantOnes_lt c),
      floatClass_subnormal hl _ hl.one_le_mantOnes (mantOnes_lt c)⟩,
    ⟨floatClass_infinity hl _, floatClass_infinity hl _⟩, ⟨floatClass_nan hl _, floatClass_nan hl _⟩⟩

/-! ## The order of the bit strings (R114) -/

/-- The weights of the fields of the constants, as multiples of the weight of exponent 1 and of that of the bias. -/
theorem expOnes_mul {c : Config} (hl : c.LayoutLegal) :
    expOnes c * 2 ^ c.MB = 2 * (bias c * 2 ^ c.MB) + 2 ^ c.MB ∧ (expOnes c - 1) * 2 ^ c.MB = 2 * (bias c * 2 ^ c.MB)
      ∧ 2 ^ c.MB ≤ bias c * 2 ^ c.MB := by
  rw [hl.expOnes_eq]
  refine ⟨by ring, by rw [Nat.add_sub_cancel, mul_assoc], Nat.le_mul_of_pos_left _ hl.one_le_bias⟩

/-- Settles O41: the unsigned values are linear in the weights of the sign, of the exponent 1 and of the bias. -/
theorem constantsAreOrderedAsPatterns : Obligations.ConstantsAreOrderedAsPatterns := by
  intro c hl
  have hE : 0 < 2 ^ c.E := by positivity
  have hMB : 0 < 2 ^ c.MB := by positivity
  have huval : ∀ σ e m, e < 2 ^ c.E → m < 2 ^ c.MB →
      (fpack c σ e m).uval = σ.toNat * 2 ^ (c.W - 1) + e * 2 ^ c.MB + m := fun σ e m he hm => fpack_uval hl σ he hm
  simp only [fcZeroPattern, fcNegZeroPattern, fcOnePattern, fcNegOnePattern, fcMinPositivePattern, fcMaxNegativePattern,
    fcMaxPattern, fcMinPattern, fcMinPositiveSubnormalPattern, fcMaxNegativeSubnormalPattern, fcMaxSubnormalPattern,
    fcMinSubnormalPattern, fcInfinityPattern, fcNegInfinityPattern, fcNanPattern, huval _ _ _ hE hMB,
    huval _ _ _ hl.bias_lt_two_pow_E hMB, huval _ _ _ hl.one_lt_two_pow_E hMB, huval _ _ _ (expOnes_pred_lt c) (mantOnes_lt c),
    huval _ _ _ hE hl.one_lt_two_pow_MB, huval _ _ _ hE (mantOnes_lt c), huval _ _ _ (expOnes_lt c) hMB,
    huval _ _ _ (expOnes_lt c) hl.payload_lt]
  obtain ⟨hones, hpred, hbias⟩ := expOnes_mul hl
  have hmant := mantOnes_add_one c
  have hone := hl.one_le_mantOnes
  have hpayload := hl.payload_pos
  rw [hones, hpred]
  omega

/-! ## Where constants coincide (R117) -/

theorem fpack_inj {c : Config} {σ : Bool} {e m e' m' : Nat} (hl : c.LayoutLegal) (he : e < 2 ^ c.E) (hm : m < 2 ^ c.MB)
    (he' : e' < 2 ^ c.E) (hm' : m' < 2 ^ c.MB) : fpack c σ e m = fpack c σ e' m' ↔ e = e' ∧ m = m' := by
  constructor
  · intro h
    have hexp := congrArg (expField c) h
    have hmant := congrArg (mantField c) h
    rw [expField_fpack hl σ he hm, expField_fpack hl σ he' hm'] at hexp
    rw [mantField_fpack hl σ he hm, mantField_fpack hl σ he' hm'] at hmant
    exact ⟨hexp, hmant⟩
  · rintro ⟨rfl, rfl⟩
    rfl

theorem bias_eq_one_iff {c : Config} (hl : c.LayoutLegal) : bias c = 1 ↔ c.E = 2 := by
  have hpow : bias c = 1 ↔ 2 ^ (c.E - 1) = 2 ^ 1 := by rw [← bias_add_one]; omega
  rw [hpow, Nat.pow_right_inj one_lt_two]
  have := hl.two_le_E
  omega

theorem mantOnes_eq_one_iff (c : Config) : mantOnes c = 1 ↔ c.MB = 1 := by
  have hpow : mantOnes c = 1 ↔ 2 ^ c.MB = 2 ^ 1 := by rw [← mantOnes_add_one]; omega
  rw [hpow, Nat.pow_right_inj one_lt_two]

/-- Settles O42: two constants coincide when their fields do. -/
theorem constantsCoincideOnlyAtTheSmallestParameters : Obligations.ConstantsCoincideOnlyAtTheSmallestParameters := by
  intro c hl
  have hMB : 0 < 2 ^ c.MB := by positivity
  have hE : 0 < 2 ^ c.E := by positivity
  have hone : ∀ σ, fpack c σ (bias c) 0 = fpack c σ 1 0 ↔ c.E = 2 := fun σ => by
    rw [fpack_inj hl hl.bias_lt_two_pow_E hMB hl.one_lt_two_pow_E hMB, and_iff_left rfl, bias_eq_one_iff hl]
  have hsub : ∀ σ, fpack c σ 0 (mantOnes c) = fpack c σ 0 1 ↔ c.MB = 1 := fun σ => by
    rw [fpack_inj hl hE (mantOnes_lt c) hE hl.one_lt_two_pow_MB, and_iff_right rfl, mantOnes_eq_one_iff]
  refine ⟨hone false, hone true, hsub false, hsub true, fun h => ?_, fun h => ?_⟩
  · have hb : bias c = 1 := (bias_eq_one_iff hl).mpr h
    rw [fcMinExpPattern, fcMaxExpPattern, sval_pat hl.1 (representable_two_sub_bias hl),
      sval_pat hl.1 (representable_bias_add_one hl), hb]
    decide
  · have hlt := hl.payload_lt
    have hpos := hl.payload_pos
    rw [h] at hlt
    omega

/-! ## The order of the numbers (R113, R114) -/

/-- The weight of exponent field 1, which subnormals share (R113). -/
def unitWeight (c : Config) : ℚ := 2 ^ (1 - (bias c : ℤ))

/-- The fraction of a full mantissa field. -/
def fullFraction (c : Config) : ℚ := (mantOnes c : ℚ) / 2 ^ c.MB

theorem unitWeight_pos (c : Config) : 0 < unitWeight c := by rw [unitWeight]; positivity

theorem unitWeight_le_one {c : Config} (hl : c.LayoutLegal) : unitWeight c ≤ 1 := by
  have hbias : 1 ≤ (bias c : ℤ) := by exact_mod_cast hl.one_le_bias
  exact zpow_le_one_of_nonpos₀ one_le_two (by omega)

theorem smallest_fraction_le {c : Config} (hl : c.LayoutLegal) : (1 : ℚ) / 2 ^ c.MB ≤ fullFraction c := by
  have hone : (1 : ℚ) ≤ mantOnes c := by exact_mod_cast hl.one_le_mantOnes
  exact div_le_div_of_nonneg_right hone (by positivity)

theorem fullFraction_pos {c : Config} (hl : c.LayoutLegal) : 0 < fullFraction c :=
  (by positivity : (0 : ℚ) < 1 / 2 ^ c.MB).trans_le (smallest_fraction_le hl)

theorem fullFraction_lt_one (c : Config) : fullFraction c < 1 := by
  rw [fullFraction, div_lt_one (by positivity)]
  exact_mod_cast mantOnes_lt c

/-- The largest finite number is above one. -/
theorem one_lt_largest {c : Config} (hl : c.LayoutLegal) : 1 < 2 ^ bias c * (1 + fullFraction c) :=
  one_lt_mul_of_le_of_lt (one_le_pow₀ one_le_two) (by have := fullFraction_pos hl; linarith)

theorem floatReading_zero {c : Config} (hl : c.LayoutLegal) (σ : Bool) : floatReading c (fpack c σ 0 0) = .finite 0 := by
  have hm : 0 < 2 ^ c.MB := by positivity
  rw [floatReading, floatClass_zero hl, mantField_fpack hl σ (by positivity) hm]
  simp

theorem floatReading_subnormal {c : Config} {m : Nat} (hl : c.LayoutLegal) (σ : Bool) (h1 : 1 ≤ m) (hm : m < 2 ^ c.MB) :
    floatReading c (fpack c σ 0 m) = .finite (signFactor σ * (unitWeight c * (m / 2 ^ c.MB))) := by
  have he : 0 < 2 ^ c.E := by positivity
  rw [floatReading, floatClass_subnormal hl σ h1 hm, signField_fpack hl σ he hm, mantField_fpack hl σ he hm]
  exact congrArg FloatReading.finite (mul_assoc _ _ _)

theorem floatReading_first_subnormal {c : Config} (hl : c.LayoutLegal) (σ : Bool) :
    floatReading c (fpack c σ 0 1) = .finite (signFactor σ * (unitWeight c * (1 / 2 ^ c.MB))) := by
  rw [floatReading_subnormal hl σ le_rfl hl.one_lt_two_pow_MB, Nat.cast_one]

theorem floatReading_last_subnormal {c : Config} (hl : c.LayoutLegal) (σ : Bool) :
    floatReading c (fpack c σ 0 (mantOnes c)) = .finite (signFactor σ * (unitWeight c * fullFraction c)) :=
  floatReading_subnormal hl σ hl.one_le_mantOnes (mantOnes_lt c)

theorem floatReading_normal {c : Config} {e m : Nat} (hl : c.LayoutLegal) (σ : Bool) (h0 : 0 < e) (he : e < expOnes c)
    (hm : m < 2 ^ c.MB) :
    floatReading c (fpack c σ e m) = .finite (signFactor σ * (2 ^ ((e : ℤ) - bias c) * (1 + m / 2 ^ c.MB))) := by
  have he' : e < 2 ^ c.E := he.trans (expOnes_lt c)
  rw [floatReading, floatClass_of_exp_between hl σ h0 he hm, signField_fpack hl σ he' hm, expField_fpack hl σ he' hm,
    mantField_fpack hl σ he' hm]
  exact congrArg FloatReading.finite (mul_assoc _ _ _)

theorem floatReading_smallest_normal {c : Config} (hl : c.LayoutLegal) (σ : Bool) :
    floatReading c (fpack c σ 1 0) = .finite (signFactor σ * unitWeight c) := by
  have hexp := hl.expOnes_eq
  have hbias := hl.one_le_bias
  rw [floatReading_normal hl σ one_pos (by omega) (by positivity), unitWeight]
  simp

theorem floatReading_one {c : Config} (hl : c.LayoutLegal) (σ : Bool) :
    floatReading c (fpack c σ (bias c) 0) = .finite (signFactor σ) := by
  have hexp := hl.expOnes_eq
  rw [floatReading_normal hl σ hl.one_le_bias (by omega) (by positivity)]
  simp

theorem floatReading_largest_finite {c : Config} (hl : c.LayoutLegal) (σ : Bool) :
    floatReading c (fpack c σ (expOnes c - 1) (mantOnes c))
      = .finite (signFactor σ * (2 ^ bias c * (1 + fullFraction c))) := by
  have hexp := hl.expOnes_eq
  have hbias := hl.one_le_bias
  have hdiff : ((expOnes c - 1 : ℕ) : ℤ) - bias c = (bias c : ℕ) := by omega
  rw [floatReading_normal hl σ (by omega) (by omega) (mantOnes_lt c), hdiff, zpow_natCast, fullFraction]

theorem floatReading_infinity {c : Config} (hl : c.LayoutLegal) (σ : Bool) :
    floatReading c (fpack c σ (expOnes c) 0) = if σ then .negInfinity else .posInfinity := by
  rw [floatReading, floatClass_infinity hl, signField_fpack hl σ (expOnes_lt c) (by positivity)]

theorem floatReading_nan {c : Config} (hl : c.LayoutLegal) (σ : Bool) :
    floatReading c (fpack c σ (expOnes c) c.NAN_PAYLOAD) = .notANumber := by
  rw [floatReading, floatClass_nan hl]

/-- Settles O40: in units of exponent 1 the magnitudes are 0, the smallest and the full fraction, 1, the number one, and the
largest finite number; the negative constants are their mirror images. -/
theorem constantsAreOrderedAsNumbers : Obligations.ConstantsAreOrderedAsNumbers := by
  intro c hl
  have hu := unitWeight_pos c
  have hu1 := unitWeight_le_one hl
  have hfirst : 0 < unitWeight c * (1 / 2 ^ c.MB) := by positivity
  have hfirst_last : unitWeight c * (1 / 2 ^ c.MB) ≤ unitWeight c * fullFraction c :=
    mul_le_mul_of_nonneg_left (smallest_fraction_le hl) hu.le
  have hlast_unit : unitWeight c * fullFraction c < unitWeight c := mul_lt_of_lt_one_right hu (fullFraction_lt_one c)
  have hlargest := one_lt_largest hl
  simp only [fcZeroPattern, fcNegZeroPattern, fcOnePattern, fcNegOnePattern, fcMinPositivePattern, fcMaxNegativePattern,
    fcMaxPattern, fcMinPattern, fcMinPositiveSubnormalPattern, fcMaxNegativeSubnormalPattern, fcMaxSubnormalPattern,
    fcMinSubnormalPattern, fcInfinityPattern, fcNegInfinityPattern, fcNanPattern, fcNegNanPattern, floatReading_zero hl,
    floatReading_first_subnormal hl, floatReading_last_subnormal hl, floatReading_smallest_normal hl, floatReading_one hl,
    floatReading_largest_finite hl, floatReading_infinity hl, floatReading_nan hl, FloatReading.lt, FloatReading.le,
    signFactor, if_true, Bool.false_eq_true, if_false, one_mul, neg_one_mul, true_and, and_true]
  and_intros <;> linarith

end Sys2Proof.Machine
end

section
/-! PROOFS. The laws of the integer units (R63, R68, R73, R84): an outcome that is a value fixes the signed number delivered, so
each law is a law of the integers. -/
namespace Sys2Proof.Machine

/-! ## What a delivered value says -/

theorem checked_eq_value {c : Config} {r : Int} {y : Pattern} :
    checked c r = .value y ↔ Representable c r ∧ pat c.W r = y := by
  by_cases h : Representable c r
  · rw [checked_of_representable h, and_iff_right h, Answer.value.injEq]
  · rw [checked_of_not_representable h]
    exact iff_of_false nofun fun hr => h hr.1

theorem sval_of_checked_eq_value {c : Config} {r : Int} {y : Pattern} (hc : c.IntegerLegal) (h : checked c r = .value y) :
    sval y = r := by
  obtain ⟨hr, rfl⟩ := checked_eq_value.mp h
  exact sval_pat hc hr

/-- The detector lets the value of an operand through as that operand. -/
theorem checked_sval {c : Config} {a : Pattern} (hc : c.IntegerLegal) (ha : a.width = c.W) :
    checked c (sval a) = .value a :=
  checked_eq_value.mpr ⟨representable_sval hc ha, pat_sval ha⟩

theorem divisionGuard_value_eq_value {c : Config} {a b p q : Pattern} :
    divisionGuard c a b (.value p) = .value q ↔ sval b ≠ 0 ∧ ¬ (sval a = smin c ∧ sval b = -1) ∧ p = q := by
  unfold divisionGuard
  split_ifs with h0 hex
  · simp [h0]
  · simp [hex]
  · simp [h0, hex]

/-! ## The adder -/

/-- Settles O47: sums and differences of integers, each delivered value being the exact one. -/
theorem adderLaws : Obligations.AdderLaws := by
  intro c a b y hc ha hb
  have hsval : ∀ {r}, checked c r = .value y → sval y = r := sval_of_checked_eq_value hc
  refine ⟨?_, fun h => ⟨?_, ?_⟩, fun h => ?_, ?_, fun h => ⟨?_, ?_⟩, fun h => ?_, fun h => ?_⟩
  · rw [outcome, outcome, addAnswer, addAnswer, add_comm]
  · rw [outcome, subAnswer, hsval h, add_sub_cancel_right, checked_sval hc ha]
  · rw [outcome, subAnswer, hsval h, add_sub_cancel_left, checked_sval hc hb]
  · rw [outcome, addAnswer, hsval h, sub_add_cancel, checked_sval hc ha]
  · simp [outcome, addAnswer, subAnswer, adduAnswer, subuAnswer, sval_zeros, checked_sval hc ha]
  · rw [outcome, outcome, adduAnswer, addAnswer, sval_of_sign_clear h]
  · rw [outcome, outcome, subuAnswer, subAnswer, sval_of_sign_clear h]
  · rw [outcome, subuAnswer, hsval h, add_sub_cancel_right, checked_sval hc ha]
  · rw [outcome, adduAnswer, hsval h, sub_add_cancel, checked_sval hc ha]

/-! ## The negator -/

/-- The detector of unit 2 is the detector of unit 1 on the negation: only that of the minimum is not representable. -/
theorem negAnswer_eq_checked {c : Config} {a : Pattern} (hc : c.IntegerLegal) (ha : a.width = c.W) :
    negAnswer c a = checked c (-sval a) := by
  by_cases hmin : sval a = smin c
  · rw [negAnswer, unlessMinimum_of_eq _ hmin, hmin, checked_of_not_representable (not_representable_neg_smin c)]
  · rw [negAnswer, unlessMinimum_of_ne _ hmin,
      checked_of_representable (representable_neg (representable_sval hc ha) hmin)]

theorem sval_pat_neg_one {c : Config} (hc : c.IntegerLegal) : sval (pat c.W (-1)) = -1 :=
  sval_pat hc (representable_neg_one c)

/-- The quotient by −1 is the negation, and the guard raises Overflow exactly at the minimum. -/
theorem divAnswer_neg_one {c : Config} (hc : c.IntegerLegal) (a : Pattern) :
    divAnswer c a (pat c.W (-1)) = negAnswer c a := by
  rw [divAnswer, negAnswer, divisionGuard, unlessMinimum, sval_pat_neg_one hc, truncQuotient_neg_one]
  simp

theorem absAnswer_eq_ite (c : Config) (a : Pattern) :
    absAnswer c a = if signBit a then negAnswer c a else .value a := by
  have hmin := smin_lt_zero c
  rw [absAnswer, negAnswer]
  by_cases hneg : sval a < 0
  · rw [if_pos hneg, if_pos ((signBit_iff_neg a).mpr hneg)]
  · rw [if_neg hneg, if_neg (mt (signBit_iff_neg a).mp hneg), unlessMinimum_of_ne _ (by omega)]

/-- Settles O48: each of the other operations comes to the negation of the operand. -/
theorem negatorAgreesWithTheOtherUnits : Obligations.NegatorAgreesWithTheOtherUnits := by
  intro c a hc ha
  have hneg : outcome c (.neg a) = checked c (-sval a) := negAnswer_eq_checked hc ha
  refine ⟨?_, ?_, (divAnswer_neg_one hc a).symm, absAnswer_eq_ite c a⟩
  · rw [hneg, outcome, subAnswer, sval_zeros, zero_sub]
  · rw [hneg, outcome, mulAnswer, sval_pat_neg_one hc, mul_neg_one]

/-! ## The multiplier -/

theorem truncQuotient_mul_cancel (n : Int) {d : Int} (hd : d ≠ 0) : truncQuotient (n * d) d = n := Int.mul_tdiv_cancel n hd

theorem truncRemainder_mul (n d : Int) : truncRemainder (n * d) d = 0 := by
  rw [truncRemainder_eq_tmod, Int.mul_tmod_left]

/-- A product of two operands is not the minimum divided by −1: no operand is the negation of the minimum. -/
theorem divisionGuard_of_product {c : Config} {a b y : Pattern} (r : Answer) (hc : c.IntegerLegal) (ha : a.width = c.W)
    (hy : sval y = sval a * sval b) (h0 : sval b ≠ 0) : divisionGuard c y b r = r :=
  divisionGuard_of_representable_quotient (q := sval a) r h0 (fun hb => by rw [hy, hb]; ring) (representable_sval hc ha)

/-- Settles O49: the product divided by a factor is exact. -/
theorem multiplierLaws : Obligations.MultiplierLaws := by
  intro c a b y hc ha hb
  refine ⟨?_, fun h h0 => ?_⟩
  · rw [outcome, outcome, mulAnswer, mulAnswer, mul_comm]
  · have hy : sval y = sval a * sval b := sval_of_checked_eq_value hc h
    rw [outcome, outcome, divAnswer, remAnswer, divisionGuard_of_product _ hc ha hy h0,
      divisionGuard_of_product _ hc ha hy h0, hy, truncQuotient_mul_cancel _ h0, truncRemainder_mul, pat_sval ha]
    exact ⟨rfl, rfl⟩

/-! ## The divider -/

/-- The truncating remainder is negative exactly for a negative dividend that the divisor does not divide. -/
theorem truncRemainder_nonneg_iff (n d : Int) : 0 ≤ truncRemainder n d ↔ 0 ≤ n ∨ d ∣ n := by
  have hbetween := truncRemainder_between n d
  constructor
  · intro hr
    by_cases hn : 0 ≤ n
    · exact .inl hn
    · have hzero : truncRemainder n d = 0 := by omega
      have hdvd := dvd_sub_truncRemainder n d
      rw [hzero, sub_zero] at hdvd
      exact .inr hdvd
  · rintro (hn | ⟨q, rfl⟩)
    · omega
    · rw [mul_comm, truncRemainder_mul]

/-- The truncating remainder is zero or has the sign of the dividend. -/
theorem truncRemainder_eq_zero_or_sign (n d : Int) :
    truncRemainder n d = 0 ∨ (truncRemainder n d < 0 ↔ n < 0) := by
  have hbetween := truncRemainder_between n d
  omega

/-- Settles O50: the delivered patterns read as the two pairs, of which the Euclidean one is a step from the other. -/
theorem divisionLaws : Obligations.DivisionLaws := by
  intro c a b q r q' r' hc ha hb hdiv hrem hdive hreme
  obtain ⟨h0, hex, rfl⟩ := divisionGuard_value_eq_value.mp hdiv
  obtain ⟨-, -, rfl⟩ := divisionGuard_value_eq_value.mp hrem
  obtain ⟨-, -, rfl⟩ := divisionGuard_value_eq_value.mp hdive
  obtain ⟨-, -, rfl⟩ := divisionGuard_value_eq_value.mp hreme
  have hn : Representable c (sval a) := representable_sval hc ha
  have hd : Representable c (sval b) := representable_sval hc hb
  rw [sval_pat hc (representable_truncQuotient hn hd h0 hex), sval_pat hc (representable_truncRemainder _ hd h0),
    sval_pat hc (representable_euclidQuotient hn hd h0 hex), sval_pat hc (representable_euclidRemainder _ hd h0)]
  refine ⟨⟨?_, ?_⟩, ⟨abs_truncRemainder_lt _ h0, truncRemainder_eq_zero_or_sign _ _⟩,
    ⟨euclidRemainder_nonneg _ h0, euclidRemainder_lt_abs _ h0⟩, ?_⟩
  · rw [mul_truncQuotient, sub_add_cancel]
  · rw [mul_euclidQuotient, sub_add_cancel]
  · have hstep := euclid_pair_eq_step (sval a) h0
    simp only [← truncRemainder_nonneg_iff]
    split_ifs at hstep ⊢ with hr hpos
    · rw [hstep.1, hstep.2]
      exact ⟨rfl, rfl⟩
    · rw [hstep.1, hstep.2, abs_of_pos hpos]
      exact ⟨rfl, rfl⟩
    · rw [hstep.1, hstep.2, abs_of_nonpos (not_lt.mp hpos)]
      exact ⟨rfl, rfl⟩

end Sys2Proof.Machine
end

section
/-! PROOFS. The bit-level description of the integer units (R58, R62, R66, R72, R74): each detector on bits is set exactly where
the exact result is not representable, and the wrapped bits beside it are the pattern of the exact result. -/
namespace Sys2Proof.Machine

/-! ## The readings of an operand and of the wrapped sum and difference -/

/-- A port value reads the same unsigned and signed below the sign bit, and `2^W` lower from there on (R9). -/
theorem sval_cases {c : Config} {p : Pattern} (hc : c.IntegerLegal) (hp : p.width = c.W) :
    0 ≤ sval p ∧ sval p = p.uval ∨ sval p < 0 ∧ sval p = p.uval - 2 * 2 ^ (c.W - 1) := by
  cases hs : signBit p with
  | false => exact .inl ⟨(signBit_eq_false_iff_nonneg p).mp hs, sval_of_sign_clear hs⟩
  | true =>
    refine .inr ⟨(signBit_iff_neg p).mp hs, ?_⟩
    rw [sval_of_sign_set hs, hp, two_pow_pred (W_pos hc)]

/-- A port value is below `2^W`, written with the weight of the sign bit. -/
theorem uval_lt_two_mul {c : Config} {p : Pattern} (hc : c.IntegerLegal) (hp : p.width = c.W) :
    p.uval < 2 * 2 ^ (c.W - 1) := by
  rw [← two_pow_W hc, ← hp]
  exact p.uval_lt

theorem wrappedSum_uval (w : Nat) (a b : Pattern) : (wrappedSum w a b).uval = (a.uval + b.uval) % 2 ^ w := by
  rw [wrappedSum, upat_uval, Nat.mod_mod]

theorem wrappedDifference_uval (w : Nat) (a b : Pattern) :
    (wrappedDifference w a b).uval = (a.uval + (2 ^ w - b.uval)) % 2 ^ w := by
  rw [wrappedDifference, upat_uval, Nat.mod_mod]

/-- The carry out is what the wrapped sum leaves of the exact one (R58, R62). -/
theorem wrappedSum_cases {c : Config} {a b : Pattern} (hc : c.IntegerLegal) (ha : a.width = c.W) (hb : b.width = c.W) :
    ¬ carryOut c.W a b ∧ ((wrappedSum c.W a b).uval : Int) = a.uval + b.uval
      ∨ carryOut c.W a b ∧ (wrappedSum c.W a b).uval + (2 * 2 ^ (c.W - 1) : Int) = a.uval + b.uval := by
  have hA := uval_lt_two_mul hc ha
  have hB := uval_lt_two_mul hc hb
  rw [wrappedSum_uval, carryOut, decide_eq_true_eq, two_pow_W hc]
  rcases lt_or_ge (a.uval + b.uval) (2 * 2 ^ (c.W - 1)) with hlt | hge
  · rw [Nat.mod_eq_of_lt hlt]
    exact .inl ⟨hlt.not_ge, Nat.cast_add _ _⟩
  · rw [Nat.mod_eq_sub_mod hge, Nat.mod_eq_of_lt (by omega)]
    exact .inr ⟨hge, by exact_mod_cast Nat.sub_add_cancel hge⟩

/-- The borrow out is what the wrapped difference adds to the exact one (R58, R62). -/
theorem wrappedDifference_cases {c : Config} {a b : Pattern} (hc : c.IntegerLegal) (ha : a.width = c.W) (hb : b.width = c.W) :
    ¬ borrowOut a b ∧ ((wrappedDifference c.W a b).uval + b.uval : Int) = a.uval
      ∨ borrowOut a b ∧ ((wrappedDifference c.W a b).uval + b.uval : Int) = a.uval + 2 * 2 ^ (c.W - 1) := by
  have hA := uval_lt_two_mul hc ha
  have hB := uval_lt_two_mul hc hb
  rw [wrappedDifference_uval, borrowOut, decide_eq_true_eq, two_pow_W hc]
  rcases lt_or_ge a.uval b.uval with hlt | hge
  · rw [Nat.mod_eq_of_lt (by omega)]
    have hsum : a.uval + (2 * 2 ^ (c.W - 1) - b.uval) + b.uval = a.uval + 2 * 2 ^ (c.W - 1) := by omega
    exact .inr ⟨hlt, by exact_mod_cast hsum⟩
  · rw [Nat.mod_eq_sub_mod (by omega), Nat.mod_eq_of_lt (by omega)]
    have hsum : a.uval + (2 * 2 ^ (c.W - 1) - b.uval) - 2 * 2 ^ (c.W - 1) + b.uval = a.uval := by omega
    exact .inl ⟨hge.not_gt, by exact_mod_cast hsum⟩

/-! ## The detectors of unit 1 (R58, R62) -/

theorem eq_xor_iff : ∀ x y z : Bool, x = (y ^^ z) ↔ (x = true ↔ ¬ (y = true ↔ z = true)) := by decide

theorem signBit_eq_signBit_iff (p q : Pattern) : signBit p = signBit q ↔ (sval p < 0 ↔ sval q < 0) := by
  rw [Bool.eq_iff_iff, signBit_iff_neg, signBit_iff_neg]

section
variable {c : Config} {a b : Pattern} (hc : c.IntegerLegal) (ha : a.width = c.W) (hb : b.width = c.W)
include hc ha hb

/-- What the detectors read: the two readings of the operands, and those of the wrapped pattern `s` beside them. -/
theorem readings_linear {s : Pattern} (hs : s.width = c.W) :
    (0 ≤ sval a ∧ sval a = a.uval ∨ sval a < 0 ∧ sval a = a.uval - 2 * 2 ^ (c.W - 1))
      ∧ (0 ≤ sval b ∧ sval b = b.uval ∨ sval b < 0 ∧ sval b = b.uval - 2 * 2 ^ (c.W - 1))
      ∧ (0 ≤ sval s ∧ sval s = s.uval ∨ sval s < 0 ∧ sval s = s.uval - 2 * 2 ^ (c.W - 1))
      ∧ (-2 ^ (c.W - 1) ≤ sval a ∧ sval a ≤ 2 ^ (c.W - 1) - 1)
      ∧ (-2 ^ (c.W - 1) ≤ sval b ∧ sval b ≤ 2 ^ (c.W - 1) - 1)
      ∧ (-2 ^ (c.W - 1) ≤ sval s ∧ sval s ≤ 2 ^ (c.W - 1) - 1) :=
  ⟨sval_cases hc ha, sval_cases hc hb, sval_cases hc hs, representable_sval hc ha, representable_sval hc hb,
    representable_sval hc hs⟩

theorem addOverflowBit_iff : addOverflowBit c.W a b = true ↔ ¬ Representable c (sval a + sval b) := by
  have hread := readings_linear hc ha hb (s := wrappedSum c.W a b) rfl
  have hwrap := wrappedSum_cases hc ha hb
  simp only [addOverflowBit, Bool.and_eq_true, beq_iff_eq, bne_iff_ne, ne_eq, signBit_eq_signBit_iff, Representable, smin, smax]
  omega

theorem subOverflowBit_iff : subOverflowBit c.W a b = true ↔ ¬ Representable c (sval a - sval b) := by
  have hread := readings_linear hc ha hb (s := wrappedDifference c.W a b) rfl
  have hwrap := wrappedDifference_cases hc ha hb
  simp only [subOverflowBit, Bool.and_eq_true, bne_iff_ne, ne_eq, signBit_eq_signBit_iff, Representable, smin, smax]
  omega

theorem adduOverflowBit_iff : adduOverflowBit c.W a b = true ↔ ¬ Representable c (sval a + b.uval) := by
  have hread := readings_linear hc ha hb (s := wrappedSum c.W a b) rfl
  obtain ⟨hcarry, hwrap⟩ | ⟨hcarry, hwrap⟩ := wrappedSum_cases hc ha hb <;>
    simp only [adduOverflowBit, Bool.and_eq_true, Bool.or_eq_true, Bool.not_eq_true', signBit_eq_false_iff_nonneg, signBit_iff_neg,
      hcarry, Bool.false_eq_true, true_or, false_or, or_false, and_true, and_false, false_and, Representable, smin, smax] <;>
    omega

theorem subuOverflowBit_iff : subuOverflowBit c.W a b = true ↔ ¬ Representable c (sval a - b.uval) := by
  have hread := readings_linear hc ha hb (s := wrappedDifference c.W a b) rfl
  obtain ⟨hcarry, hwrap⟩ | ⟨hcarry, hwrap⟩ := wrappedDifference_cases hc ha hb <;>
    simp only [subuOverflowBit, Bool.and_eq_true, Bool.or_eq_true, Bool.not_eq_true', signBit_eq_false_iff_nonneg, signBit_iff_neg,
      hcarry, Bool.false_eq_true, true_or, false_or, or_false, and_true, and_false, false_and, Representable, smin, smax] <;>
    omega

/-- Reading `b` unsigned moves the exact result by `2^W` where the top bit of `b` is set, so out of the range or into it. -/
theorem representable_unsigned_iff :
    (¬ Representable c (sval a + b.uval) ↔ ¬ (¬ Representable c (sval a + sval b) ↔ sval b < 0))
      ∧ (¬ Representable c (sval a - b.uval) ↔ ¬ (¬ Representable c (sval a - sval b) ↔ sval b < 0)) := by
  have hread := readings_linear hc ha hb ha
  simp only [Representable, smin, smax]
  omega

end

/-- Settles O46: both sides are the same arithmetic condition on the operands. -/
theorem unsignedDetectorIsTheSignedOneXorTheTopBit : Obligations.UnsignedDetectorIsTheSignedOneXorTheTopBit := by
  intro c a b hc ha hb
  obtain ⟨hadd, hsub⟩ := representable_unsigned_iff hc ha hb
  refine ⟨?_, ?_, ?_, ?_⟩
  · rw [eq_xor_iff, adduOverflowBit_iff hc ha hb,
      addOverflowBit_iff hc ha hb, signBit_iff_neg, hadd]
  · rw [eq_xor_iff, subuOverflowBit_iff hc ha hb,
      subOverflowBit_iff hc ha hb, signBit_iff_neg, hsub]
  · exact (adduOverflowBit_iff hc ha hb).trans checked_eq_overflow.symm
  · exact (subuOverflowBit_iff hc ha hb).trans checked_eq_overflow.symm

end Sys2Proof.Machine
end

section
/-! PROOFS. The integer operations on bits: a pattern congruent to the exact result is its pattern, so where the detector on bits
is clear the bits delivered are the outcome of the machine. -/
namespace Sys2Proof.Machine

/-! ## The wrapped bits are the pattern of the exact result -/

/-- A pattern whose unsigned value is congruent to a number modulo `2^w` is the pattern of that number (R9). -/
theorem eq_pat_of_modEq {w : Nat} {p : Pattern} {r : Int} (hp : p.width = w) (h : p.uval ≡ r [ZMOD 2 ^ w]) : p = pat w r := by
  refine Pattern.ext_uval (hp.trans (pat_width w r).symm) ?_
  have hlt : (p.uval : Int) < 2 ^ w := by exact_mod_cast hp ▸ p.uval_lt
  zify
  rw [pat_uval, ← h, Int.emod_eq_of_lt (Int.natCast_nonneg _) hlt]

theorem uval_modEq_sval {w : Nat} {p : Pattern} (hp : p.width = w) : p.uval ≡ sval p [ZMOD 2 ^ w] := by
  rw [Int.modEq_iff_dvd, sval, hp]
  exact ⟨-((signBit p).toNat : Int), by ring⟩

theorem wrappedSum_modEq (w : Nat) (a b : Pattern) : (wrappedSum w a b).uval ≡ a.uval + b.uval [ZMOD 2 ^ w] := by
  rw [wrappedSum_uval]
  push_cast
  exact Int.mod_modEq _ _

theorem wrappedDifference_modEq {w : Nat} (a : Pattern) {b : Pattern} (hb : b.width = w) :
    (wrappedDifference w a b).uval ≡ a.uval - b.uval [ZMOD 2 ^ w] := by
  have hle : b.uval ≤ 2 ^ w := hb ▸ b.uval_lt.le
  rw [wrappedDifference_uval]
  push_cast [hle]
  refine (Int.mod_modEq _ _).trans (Int.modEq_iff_dvd.mpr ⟨-1, by ring⟩)

/-- A detector on bits beside the pattern of the exact result is the detector of R55. -/
theorem checked_eq_ite {c : Config} {r : Int} {bit : Bool} {p : Pattern} (hbit : bit = true ↔ ¬ Representable c r)
    (hp : p = pat c.W r) : checked c r = if bit then .overflow else .value p := by
  rw [checked, hp, ← ite_not]
  simp only [hbit]

/-! ## The double product of unit 3 (R72) -/

theorem doubleProduct_eq_pat (w : Nat) (a b : Pattern) :
    (⟨2 * w, doubleProduct w a b⟩ : Pattern) = pat (2 * w) (sval a * sval b) := by
  rw [doubleProduct, BitVec.signExtend, BitVec.signExtend, ← BitVec.ofInt_mul, ← sval_eq_toInt, ← sval_eq_toInt, pat]

theorem doubleProduct_modEq (w : Nat) (a b : Pattern) : (doubleProduct w a b).toNat ≡ sval a * sval b [ZMOD 2 ^ (2 * w)] := by
  have h := pat_uval (2 * w) (sval a * sval b)
  rw [← doubleProduct_eq_pat, Pattern.uval] at h
  exact h ▸ Int.mod_modEq _ _

theorem low_doubleProduct_eq_pat (w : Nat) (a b : Pattern) :
    (⟨w, (doubleProduct w a b).extractLsb' 0 w⟩ : Pattern) = pat w (sval a * sval b) := by
  refine eq_pat_of_modEq rfl ?_
  have hdvd : (2 : Int) ^ w ∣ 2 ^ (2 * w) := pow_dvd_pow 2 (by omega)
  rw [Pattern.uval, BitVec.extractLsb'_toNat, Nat.shiftRight_zero]
  push_cast
  exact (Int.mod_modEq _ _).trans ((doubleProduct_modEq w a b).of_dvd hdvd)

/-- The `W + 1` top bits of the double product, as a number. -/
theorem top_doubleProduct_toNat {w : Nat} (hw : 0 < w) (a b : Pattern) :
    ((doubleProduct w a b).extractLsb' (w - 1) (w + 1)).toNat = (doubleProduct w a b).toNat / 2 ^ (w - 1) := by
  have hlt : (doubleProduct w a b).toNat < 2 ^ (w + 1) * 2 ^ (w - 1) := by
    rw [← pow_add, show w + 1 + (w - 1) = 2 * w by omega]
    exact (doubleProduct w a b).isLt
  rw [BitVec.extractLsb'_toNat, Nat.shiftRight_eq_div_pow, Nat.mod_eq_of_lt ((Nat.div_lt_iff_lt_mul (by positivity)).mpr hlt)]

/-- The guard of unit 3 on the number of the double product: the top bits are all clear below `2^(W−1)`, and all set in the last
`2^(W−1)` of its `2^(2W) = 4·2^(W−1)·2^(W−1)` values. -/
theorem mulOverflowBit_iff_toNat {c : Config} (hc : c.IntegerLegal) (a b : Pattern) :
    mulOverflowBit c.W a b = true ↔ 2 ^ (c.W - 1) ≤ (doubleProduct c.W a b).toNat
      ∧ (doubleProduct c.W a b).toNat + 2 ^ (c.W - 1) < 4 * (2 ^ (c.W - 1) * 2 ^ (c.W - 1)) := by
  have htop := top_doubleProduct_toNat (W_pos hc) a b
  have hH : 0 < 2 ^ (c.W - 1) := by positivity
  have hones : (BitVec.allOnes (c.W + 1)).toNat = 4 * 2 ^ (c.W - 1) - 1 := by
    rw [BitVec.toNat_allOnes, pow_succ, two_pow_W hc]
    omega
  have hlt : (doubleProduct c.W a b).toNat / 2 ^ (c.W - 1) < 4 * 2 ^ (c.W - 1) := by
    rw [← htop, show 4 * 2 ^ (c.W - 1) = 2 ^ (c.W + 1) by rw [pow_succ, two_pow_W hc]; ring]
    exact BitVec.isLt _
  have hzero : ¬ (doubleProduct c.W a b).toNat / 2 ^ (c.W - 1) = 0 ↔ 2 ^ (c.W - 1) ≤ (doubleProduct c.W a b).toNat := by
    rw [Nat.div_eq_zero_iff]
    omega
  have hall : ¬ (doubleProduct c.W a b).toNat / 2 ^ (c.W - 1) = 4 * 2 ^ (c.W - 1) - 1
      ↔ (doubleProduct c.W a b).toNat + 2 ^ (c.W - 1) < 4 * (2 ^ (c.W - 1) * 2 ^ (c.W - 1)) := by
    have hdiv := Nat.div_lt_iff_lt_mul (x := (doubleProduct c.W a b).toNat) (y := 4 * 2 ^ (c.W - 1) - 1) hH
    rw [Nat.sub_mul, one_mul, mul_assoc] at hdiv
    omega
  rw [mulOverflowBit, Bool.and_eq_true, bne_iff_ne, bne_iff_ne, ne_eq, ne_eq, ← BitVec.toNat_inj, ← BitVec.toNat_inj, htop,
    hones, BitVec.toNat_zero, hzero, hall]

/-- Two operands are each at most `2^(W−1)` in magnitude, so their product fills at most half of the double product's range. -/
theorem abs_product_le {c : Config} {a b : Pattern} (hc : c.IntegerLegal) (ha : a.width = c.W) (hb : b.width = c.W) :
    |sval a * sval b| ≤ 2 ^ (c.W - 1) * 2 ^ (c.W - 1) := by
  have hle : ∀ {p : Pattern}, p.width = c.W → |sval p| ≤ 2 ^ (c.W - 1) := fun hp => by
    obtain ⟨hlo, hhi⟩ := representable_sval hc hp
    exact abs_le.mpr ⟨hlo, hhi.trans (sub_le_self _ zero_le_one)⟩
  rw [abs_mul]
  exact mul_le_mul (hle ha) (hle hb) (abs_nonneg _) (by positivity)

theorem doubleProduct_toNat_cases {c : Config} {a b : Pattern} (hc : c.IntegerLegal) (ha : a.width = c.W)
    (hb : b.width = c.W) :
    0 ≤ sval a * sval b ∧ (doubleProduct c.W a b).toNat = sval a * sval b
      ∨ sval a * sval b < 0
        ∧ (doubleProduct c.W a b).toNat = sval a * sval b + 4 * (2 ^ (c.W - 1) * 2 ^ (c.W - 1)) := by
  obtain ⟨hlo, hhi⟩ := abs_le.mp (abs_product_le hc ha hb)
  have hH : (0 : Int) < 2 ^ (c.W - 1) * 2 ^ (c.W - 1) := by positivity
  have hpow : (2 : Int) ^ (2 * c.W) = 4 * (2 ^ (c.W - 1) * 2 ^ (c.W - 1)) := by
    rw [two_mul, pow_add, two_pow_pred (W_pos hc)]
    ring
  have hval := pat_uval (2 * c.W) (sval a * sval b)
  rw [← doubleProduct_eq_pat, Pattern.uval] at hval
  rcases le_or_gt 0 (sval a * sval b) with h0 | h0
  · exact .inl ⟨h0, by rw [hval, Int.emod_eq_of_lt h0 (by omega)]⟩
  · exact .inr ⟨h0, by rw [hval, ← Int.add_emod_right, hpow, Int.emod_eq_of_lt (by omega) (by omega)]⟩

theorem mulOverflowBit_iff {c : Config} {a b : Pattern} (hc : c.IntegerLegal) (ha : a.width = c.W) (hb : b.width = c.W) :
    mulOverflowBit c.W a b = true ↔ ¬ Representable c (sval a * sval b) := by
  have hcases := doubleProduct_toNat_cases hc ha hb
  obtain ⟨hlo, hhi⟩ := abs_le.mp (abs_product_le hc ha hb)
  have hH : (1 : Int) ≤ 2 ^ (c.W - 1) := one_le_pow₀ (by decide)
  have hsq : (2 : Int) ^ (c.W - 1) ≤ 2 ^ (c.W - 1) * 2 ^ (c.W - 1) := le_mul_of_one_le_left (by positivity) hH
  rw [mulOverflowBit_iff_toNat hc]
  zify
  simp only [Representable, smin, smax]
  omega

/-! ## The divider from magnitudes and signs (R74, R76, R80) -/

/-- The truncating quotient is the quotient of the magnitudes, negative where the signs differ. -/
theorem signedQuotient_eq (n d : Int) : signedQuotient n d = truncQuotient n d := by
  have hmag : (truncQuotient n d).natAbs = n.natAbs / d.natAbs := Int.natAbs_tdiv n d
  rw [signedQuotient, ← hmag]
  rcases le_or_gt 0 n with hn | hn <;> rcases le_or_gt 0 d with hd | hd
  · have hq : 0 ≤ truncQuotient n d := Int.tdiv_nonneg hn hd
    rw [if_neg (by simp [hn.not_gt, hd.not_gt])]
    omega
  · have hq : truncQuotient n d ≤ 0 := Int.tdiv_nonpos_of_nonneg_of_nonpos hn hd.le
    rw [if_pos (by simp [hn.not_gt, hd])]
    omega
  · have hq : 0 ≤ truncQuotient (-n) d := Int.tdiv_nonneg (by omega) hd
    rw [truncQuotient, Int.neg_tdiv, ← truncQuotient] at hq
    rw [if_pos (by simp [hn, hd.not_gt])]
    omega
  · have hq : 0 ≤ truncQuotient n d := Int.tdiv_nonneg_of_nonpos_of_nonpos hn.le hd.le
    rw [if_neg (by simp [hn, hd])]
    omega

theorem signedRemainder_eq (n d : Int) : signedRemainder n d = truncRemainder n d := by
  have hmag := natAbs_truncRemainder n d
  have hsign := truncRemainder_between n d
  rw [signedRemainder, ← hmag]
  split <;> omega

theorem stepped_pair_eq (n : Int) {d : Int} (hd : d ≠ 0) :
    steppedQuotient n d = euclidQuotient n d ∧ steppedRemainder n d = euclidRemainder n d := by
  have hstep := euclid_pair_eq_step n hd
  rw [steppedQuotient, steppedRemainder, signedQuotient_eq, signedRemainder_eq]
  split_ifs at hstep ⊢ <;> exact ⟨hstep.1.symm, hstep.2.symm⟩

/-- The guard on patterns is the guard on values. -/
theorem patternGuard_eq {c : Config} {a b : Pattern} (hc : c.IntegerLegal) (ha : a.width = c.W) (hb : b.width = c.W)
    (r : Answer) : patternGuard c.W a b r = divisionGuard c a b r := by
  simp only [patternGuard, divisionGuard, sval_eq_zero_iff hc hb, sval_eq_smin_iff hc ha, sval_eq_neg_one_iff hc hb]

/-- Behind the guard the divisor is not zero, so a pair that agrees for those divisors agrees there. -/
theorem divisionGuard_congr {c : Config} {a b : Pattern} {r r' : Answer} (h : sval b ≠ 0 → r = r') :
    divisionGuard c a b r = divisionGuard c a b r' := by
  unfold divisionGuard
  split
  · rfl
  · rw [h ‹_›]

/-! ## The integer units on bits -/

theorem negAnswer_eq_ite {c : Config} {a : Pattern} (hc : c.IntegerLegal) (ha : a.width = c.W) :
    negAnswer c a = if negOverflowBit a then .overflow else .value (complementPlusOne a) := by
  rw [negAnswer, unlessMinimum, complementPlusOne_eq_pat ha]
  simp only [negOverflowBit_iff_eq_smin hc ha]

/-- The bit-level outcome of an integer operation is the outcome of the machine. -/
theorem datapath_eq_outcome_of_integer {c : Config} {i : Instr} (hi : i.isLayout = false) (hc : c.IntegerLegal)
    (hfit : i.operandsFit c.W = true) : datapath c i = outcome c i := by
  cases i with
  | add a b =>
    obtain ⟨ha, hb⟩ := widths_of_operandsFit rfl hfit
    exact (checked_eq_ite (addOverflowBit_iff hc ha hb) (eq_pat_of_modEq rfl
      ((wrappedSum_modEq c.W a b).trans ((uval_modEq_sval ha).add (uval_modEq_sval hb))))).symm
  | sub a b =>
    obtain ⟨ha, hb⟩ := widths_of_operandsFit rfl hfit
    exact (checked_eq_ite (subOverflowBit_iff hc ha hb) (eq_pat_of_modEq rfl
      ((wrappedDifference_modEq a hb).trans ((uval_modEq_sval ha).sub (uval_modEq_sval hb))))).symm
  | addu a b =>
    obtain ⟨ha, hb⟩ := widths_of_operandsFit rfl hfit
    exact (checked_eq_ite (adduOverflowBit_iff hc ha hb) (eq_pat_of_modEq rfl
      ((wrappedSum_modEq c.W a b).trans ((uval_modEq_sval ha).add_right _)))).symm
  | subu a b =>
    obtain ⟨ha, hb⟩ := widths_of_operandsFit rfl hfit
    exact (checked_eq_ite (subuOverflowBit_iff hc ha hb) (eq_pat_of_modEq rfl
      ((wrappedDifference_modEq a hb).trans ((uval_modEq_sval ha).sub_right _)))).symm
  | neg a =>
    have ha : a.width = c.W := width_of_operandsFit rfl hfit
    exact (negAnswer_eq_ite hc ha).symm
  | abs a =>
    have ha : a.width = c.W := width_of_operandsFit rfl hfit
    rw [outcome, absAnswer_eq_ite, negAnswer_eq_ite hc ha, datapath]
  | mul a b =>
    obtain ⟨ha, hb⟩ := widths_of_operandsFit rfl hfit
    exact (checked_eq_ite (mulOverflowBit_iff hc ha hb) (low_doubleProduct_eq_pat c.W a b)).symm
  | div a b =>
    obtain ⟨ha, hb⟩ := widths_of_operandsFit rfl hfit
    rw [datapath, patternGuard_eq hc ha hb, signedQuotient_eq, outcome, divAnswer]
  | rem a b =>
    obtain ⟨ha, hb⟩ := widths_of_operandsFit rfl hfit
    rw [datapath, patternGuard_eq hc ha hb, signedRemainder_eq, outcome, remAnswer]
  | dive a b =>
    obtain ⟨ha, hb⟩ := widths_of_operandsFit rfl hfit
    rw [datapath, patternGuard_eq hc ha hb, outcome, diveAnswer]
    exact divisionGuard_congr fun h0 => by rw [(stepped_pair_eq (sval a) h0).1]
  | reme a b =>
    obtain ⟨ha, hb⟩ := widths_of_operandsFit rfl hfit
    rw [datapath, patternGuard_eq hc ha hb, outcome, remeAnswer]
    exact divisionGuard_congr fun h0 => by rw [(stepped_pair_eq (sval a) h0).2]
  | _ => cases hi

end Sys2Proof.Machine
end

section
/-! PROOFS. The layout builder on bits (R115): the number of each pattern built with shifts and masks is the number that `fpack`
packs, and each negative constant is the positive one under the sign bit (R88). -/
namespace Sys2Proof.Machine

/-! ## The numbers of shifted ones -/

theorem toNat_shiftLeft_of_lt {w : Nat} {x : BitVec w} {k : Nat} (h : x.toNat * 2 ^ k < 2 ^ w) :
    (x <<< k).toNat = x.toNat * 2 ^ k := by
  rw [BitVec.toNat_shiftLeft, Nat.shiftLeft_eq, Nat.mod_eq_of_lt h]

/-- Ones shifted left by `k` are all but the low `k` ones. -/
theorem toNat_ones_shiftLeft {w k : Nat} (hk : k ≤ w) : (BitVec.allOnes w <<< k).toNat = 2 ^ w - 2 ^ k := by
  have hle : 2 ^ k ≤ 2 ^ w := Nat.pow_le_pow_right two_pos hk
  have hpos : 0 < 2 ^ k := by positivity
  have hmul : (2 ^ w - 1) * 2 ^ k = 2 ^ w * (2 ^ k - 1) + (2 ^ w - 2 ^ k) := by
    rw [Nat.sub_mul, Nat.mul_sub, one_mul, mul_one]
    have : 2 ^ w ≤ 2 ^ w * 2 ^ k := Nat.le_mul_of_pos_right _ hpos
    omega
  rw [BitVec.toNat_shiftLeft, BitVec.toNat_allOnes, Nat.shiftLeft_eq, hmul, Nat.mul_add_mod, Nat.mod_eq_of_lt (by omega)]

/-- Clearing bit `k` of `n` ones takes its weight away. -/
theorem two_pow_sub_one_xor {n k : Nat} (hk : k < n) : (2 ^ n - 1) ^^^ 2 ^ k = 2 ^ n - (2 ^ k + 1) := by
  refine Nat.eq_of_testBit_eq fun i => ?_
  rw [Nat.testBit_xor, Nat.testBit_two_pow_sub_one, Nat.testBit_two_pow_sub_succ (Nat.pow_lt_pow_right one_lt_two hk),
    Nat.testBit_two_pow]
  by_cases hki : k = i
  · simp [← hki, hk]
  · simp [hki]

/-! ## The patterns with a clear sign -/

theorem fpack_eq_of_toNat {c : Config} {σ : Bool} {e m : Nat} {p : BitVec c.W} (hl : c.LayoutLegal) (he : e < 2 ^ c.E)
    (hm : m < 2 ^ c.MB) (h : p.toNat = σ.toNat * 2 ^ (c.W - 1) + e * 2 ^ c.MB + m) : fpack c σ e m = ⟨c.W, p⟩ :=
  Pattern.ext_uval rfl ((fpack_uval hl σ he hm).trans h.symm)

theorem smBits_toNat (c : Config) : (smBits c).toNat = 2 ^ (c.W - 1) - 1 := by
  rw [smBits, onesBits, BitVec.toNat_ushiftRight, BitVec.toNat_allOnes, two_pow_sub_one_shiftRight]

theorem unitBits_toNat {c : Config} (hc : c.IntegerLegal) : (unitBits c).toNat = 1 := BitVec.toNat_one (W_pos hc)

theorem expBiasBits_toNat (c : Config) : (expBiasBits c).toNat = bias c := by
  have hE : c.W - 1 - (c.MB + 1) = c.E - 1 := by rw [Config.E]; omega
  rw [expBiasBits, BitVec.toNat_ushiftRight, smBits_toNat c, two_pow_sub_one_shiftRight, hE, bias]

section
variable {c : Config} (hl : c.LayoutLegal)
include hl

/-- Exponent and mantissa fields are below `2^W`. -/
theorem fields_lt_two_pow_W {e m : Nat} (he : e < 2 ^ c.E) (hm : m < 2 ^ c.MB) : e * 2 ^ c.MB + m < 2 ^ c.W :=
  (fields_lt hl he hm).trans (Nat.pow_lt_pow_right one_lt_two (Nat.sub_lt (W_pos hl.1) one_pos))

theorem unit_shiftLeft_MB_toNat : (unitBits c <<< c.MB).toNat = 2 ^ c.MB := by
  have hlt : 1 * 2 ^ c.MB < 2 ^ c.W := fields_lt_two_pow_W hl (m := 0) hl.one_lt_two_pow_E (by positivity)
  rw [toNat_shiftLeft_of_lt (by rwa [unitBits_toNat hl.1]), unitBits_toNat hl.1, one_mul]

theorem fpack_zero_eq_bits : fpack c false 0 0 = ⟨c.W, 0#c.W⟩ :=
  fpack_eq_of_toNat hl (by positivity) (by positivity) (by simp)

theorem fpack_one_eq_bits : fpack c false (bias c) 0 = ⟨c.W, oneBits c⟩ := by
  have hlt : bias c * 2 ^ c.MB < 2 ^ c.W := fields_lt_two_pow_W hl (m := 0) hl.bias_lt_two_pow_E (by positivity)
  refine fpack_eq_of_toNat hl hl.bias_lt_two_pow_E (by positivity) ?_
  rw [oneBits, ← expBiasBits, toNat_shiftLeft_of_lt (by rwa [expBiasBits_toNat c]), expBiasBits_toNat c]
  simp

theorem fpack_smallest_normal_eq_bits : fpack c false 1 0 = ⟨c.W, minPositiveBits c⟩ :=
  fpack_eq_of_toNat hl hl.one_lt_two_pow_E (by positivity) (by simp [minPositiveBits, unit_shiftLeft_MB_toNat hl])

/-- The fields of the largest finite number, as the weight of the sign bit less one and the lowest exponent bit. -/
theorem largest_fields_eq : (expOnes c - 1) * 2 ^ c.MB + mantOnes c = 2 ^ (c.W - 1) - (2 ^ c.MB + 1) := by
  have hmant := mantOnes_add_one c
  have hexp := hl.expOnes_eq
  have hone := hl.one_le_bias
  rw [hl.two_pow_W_pred, ← expOnes_add_one, add_mul, Nat.sub_mul, one_mul]
  have hle : 1 * 2 ^ c.MB ≤ expOnes c * 2 ^ c.MB := Nat.mul_le_mul_right _ (by omega)
  omega

theorem fpack_largest_finite_eq_bits : fpack c false (expOnes c - 1) (mantOnes c) = ⟨c.W, maxBits c⟩ := by
  have hlt : c.MB < c.W - 1 := by rw [hl.W_eq]; have := hl.two_le_E; omega
  refine fpack_eq_of_toNat hl (expOnes_pred_lt c) (mantOnes_lt c) ?_
  rw [maxBits, BitVec.toNat_xor, smBits_toNat c, unit_shiftLeft_MB_toNat hl, two_pow_sub_one_xor hlt, add_assoc,
    largest_fields_eq hl]
  simp

theorem fpack_first_subnormal_eq_bits : fpack c false 0 1 = ⟨c.W, unitBits c⟩ :=
  fpack_eq_of_toNat hl (by positivity) hl.one_lt_two_pow_MB (by simp [unitBits_toNat hl.1])

theorem fpack_last_subnormal_eq_bits : fpack c false 0 (mantOnes c) = ⟨c.W, maxSubnormalBits c⟩ := by
  have hMB : c.W - (c.W - c.MB) = c.MB := by rw [hl.W_eq]; omega
  refine fpack_eq_of_toNat hl (by positivity) (mantOnes_lt c) ?_
  rw [maxSubnormalBits, onesBits, BitVec.toNat_ushiftRight, BitVec.toNat_allOnes, two_pow_sub_one_shiftRight, hMB, mantOnes]
  simp

theorem expOnes_mul_eq : expOnes c * 2 ^ c.MB = 2 ^ (c.W - 1) - 2 ^ c.MB := by
  rw [hl.two_pow_W_pred, expOnes, Nat.sub_mul, one_mul]

theorem infinityBits_toNat : (infinityBits c).toNat = expOnes c * 2 ^ c.MB := by
  have hle : c.MB + 1 ≤ c.W := by rw [hl.W_eq]; omega
  rw [infinityBits, onesBits, BitVec.toNat_ushiftRight, toNat_ones_shiftLeft hle, two_pow_W hl.1, pow_succ, mul_comm _ 2,
    ← Nat.mul_sub, Nat.shiftRight_one, Nat.mul_div_cancel_left _ two_pos, expOnes_mul_eq hl]

theorem fpack_infinity_eq_bits : fpack c false (expOnes c) 0 = ⟨c.W, infinityBits c⟩ :=
  fpack_eq_of_toNat hl (expOnes_lt c) (by positivity) (by simp [infinityBits_toNat hl])

theorem fpack_nan_eq_bits : fpack c false (expOnes c) c.NAN_PAYLOAD = ⟨c.W, nanBits c⟩ := by
  have hlt := fields_lt_two_pow_W hl (expOnes_lt c) hl.payload_lt
  have hor := Nat.two_pow_add_eq_or_of_lt hl.payload_lt (expOnes c)
  refine fpack_eq_of_toNat hl (expOnes_lt c) hl.payload_lt ?_
  rw [nanBits, BitVec.toNat_or, infinityBits_toNat hl, BitVec.toNat_ofNat, Nat.mod_eq_of_lt (by omega), mul_comm, ← hor]
  simp

/-! ## The patterns with a set sign (R88) -/

theorem ones_shiftLeft_top : onesBits c <<< (c.W - 1) = 1#c.W <<< (c.W - 1) := by
  refine BitVec.eq_of_toNat_eq ?_
  rw [onesBits, toNat_ones_shiftLeft (Nat.sub_le _ _), toNat_one_shiftLeft_top (W_pos hl.1), two_pow_W hl.1]
  omega

/-- A constant with a clear sign, with its sign bit set (R115). -/
theorem fpack_true_eq_withSign {e m : Nat} {p : BitVec c.W} (he : e < 2 ^ c.E) (hm : m < 2 ^ c.MB)
    (hp : fpack c false e m = ⟨c.W, p⟩) : fpack c true e m = ⟨c.W, withSign c p⟩ := by
  rw [withSign, ones_shiftLeft_top hl, fpack_true hl he hm hp]

theorem fpack_neg_zero_eq_bits : fpack c true 0 0 = ⟨c.W, onesBits c <<< (c.W - 1)⟩ := by
  rw [fpack_true hl (by positivity) (by positivity) (fpack_zero_eq_bits hl), ones_shiftLeft_top hl, BitVec.zero_or]

theorem fpack_min_eq_bits : fpack c true (expOnes c - 1) (mantOnes c) = ⟨c.W, minBits c⟩ := by
  have hlt : c.MB < c.W := by rw [hl.W_eq]; omega
  have hle : 2 ^ c.MB + 1 ≤ 2 ^ (c.W - 1) := Nat.pow_lt_pow_right one_lt_two (by rw [hl.W_eq]; have := hl.two_le_E; omega)
  refine fpack_eq_of_toNat hl (expOnes_pred_lt c) (mantOnes_lt c) ?_
  rw [minBits, onesBits, BitVec.toNat_xor, BitVec.toNat_allOnes, unit_shiftLeft_MB_toNat hl, two_pow_sub_one_xor hlt,
    add_assoc, largest_fields_eq hl, two_pow_W hl.1, Bool.toNat_true]
  omega

theorem fpack_neg_infinity_eq_bits : fpack c true (expOnes c) 0 = ⟨c.W, negInfinityBits c⟩ := by
  have hle : 2 ^ c.MB ≤ 2 ^ (c.W - 1) := Nat.pow_le_pow_right two_pos (by rw [hl.W_eq]; omega)
  refine fpack_eq_of_toNat hl (expOnes_lt c) (by positivity) ?_
  rw [negInfinityBits, onesBits, toNat_ones_shiftLeft (by rw [hl.W_eq]; omega), expOnes_mul_eq hl, two_pow_W hl.1,
    Bool.toNat_true]
  omega

end

/-! ## The scalars -/

theorem expBiasBits_eq_ofInt (c : Config) : expBiasBits c = BitVec.ofInt c.W (bias c) :=
  BitVec.eq_of_toNat_eq ((expBiasBits_toNat c).trans (pat_bias_uval c).symm)

theorem unitBits_eq_ofInt (c : Config) : unitBits c = BitVec.ofInt c.W 1 := (BitVec.ofInt_natCast c.W 1).symm

theorem unit_add_unit_eq_ofInt (c : Config) : unitBits c + unitBits c = BitVec.ofInt c.W 2 := by
  rw [unitBits_eq_ofInt, ← BitVec.ofInt_add]
  rfl

theorem maxExpBits_eq_ofInt {c : Config} (hl : c.LayoutLegal) : maxExpBits c = BitVec.ofInt c.W ((bias c : Int) + 1) := by
  have hlt : 1 * 2 ^ (c.E - 1) < 2 ^ c.W := by
    rw [one_mul]
    exact Nat.pow_lt_pow_right one_lt_two (by rw [hl.W_eq]; omega)
  have hnum : (maxExpBits c).toNat = bias c + 1 := by
    rw [maxExpBits, toNat_shiftLeft_of_lt (by rwa [unitBits_toNat hl.1]), unitBits_toNat hl.1, one_mul, bias_add_one]
  rw [← Nat.cast_add_one, BitVec.ofInt_natCast, ← hnum, BitVec.ofNat_toNat, BitVec.setWidth_eq]

/-! ## The bit-level description of the block -/

/-- The bit-level outcome of a constant is the outcome of the machine. -/
theorem datapath_eq_outcome_of_layout {c : Config} {i : Instr} (hi : i.isLayout = true) (hl : c.LayoutLegal) :
    datapath c i = outcome c i := by
  have hE : 0 < 2 ^ c.E := by positivity
  have hMB : 0 < 2 ^ c.MB := by positivity
  refine Eq.symm ?_
  cases i with
  | fcZero => exact congrArg Answer.value (fpack_zero_eq_bits hl)
  | fcNegZero => exact congrArg Answer.value (fpack_neg_zero_eq_bits hl)
  | fcOne => exact congrArg Answer.value (fpack_one_eq_bits hl)
  | fcNegOne => exact congrArg Answer.value (fpack_true_eq_withSign hl hl.bias_lt_two_pow_E hMB (fpack_one_eq_bits hl))
  | fcMinPositive => exact congrArg Answer.value (fpack_smallest_normal_eq_bits hl)
  | fcMaxNegative =>
    exact congrArg Answer.value (fpack_true_eq_withSign hl hl.one_lt_two_pow_E hMB (fpack_smallest_normal_eq_bits hl))
  | fcMax => exact congrArg Answer.value (fpack_largest_finite_eq_bits hl)
  | fcMin => exact congrArg Answer.value (fpack_min_eq_bits hl)
  | fcMinPositiveSubnormal => exact congrArg Answer.value (fpack_first_subnormal_eq_bits hl)
  | fcMaxNegativeSubnormal =>
    exact congrArg Answer.value (fpack_true_eq_withSign hl hE hl.one_lt_two_pow_MB (fpack_first_subnormal_eq_bits hl))
  | fcMaxSubnormal => exact congrArg Answer.value (fpack_last_subnormal_eq_bits hl)
  | fcMinSubnormal =>
    exact congrArg Answer.value (fpack_true_eq_withSign hl hE (mantOnes_lt c) (fpack_last_subnormal_eq_bits hl))
  | fcInfinity => exact congrArg Answer.value (fpack_infinity_eq_bits hl)
  | fcNegInfinity => exact congrArg Answer.value (fpack_neg_infinity_eq_bits hl)
  | fcNan => exact congrArg Answer.value (fpack_nan_eq_bits hl)
  | fcNegNan =>
    exact congrArg Answer.value (fpack_true_eq_withSign hl (expOnes_lt c) hl.payload_lt (fpack_nan_eq_bits hl))
  | fcRadix => rw [datapath, unit_add_unit_eq_ofInt, outcome, fcRadixPattern, pat]
  | fcMantissaDigits =>
    rw [datapath, unitBits_eq_ofInt, outcome, fcMantissaDigitsPattern, pat, BitVec.ofInt_add, BitVec.ofInt_natCast]
  | fcExpBias => rw [datapath, expBiasBits_eq_ofInt, outcome, fcExpBiasPattern, pat]
  | fcMinExp =>
    rw [datapath, unit_add_unit_eq_ofInt, expBiasBits_eq_ofInt, outcome, fcMinExpPattern, pat, Int.sub_eq_add_neg,
      BitVec.ofInt_add, BitVec.ofInt_neg, BitVec.sub_eq_add_neg]
  | fcMaxExp => rw [datapath, maxExpBits_eq_ofInt hl, outcome, fcMaxExpPattern, pat]
  | _ => cases hi

/-- Settles O45: what the machine drives is its outcome, which the bits of each unit spell. -/
theorem machineEqualsTheBitLevelDatapath : Obligations.MachineEqualsTheBitLevelDatapath := by
  intro s i hw
  obtain ⟨hu, hfit⟩ := Bool.and_eq_true_iff.mp hw
  have hout : datapath s.cfg i = outcome s.cfg i := by
    cases hi : i.isLayout with
    | true =>
      have hl : s.cfg.LayoutLegal := by simpa only [Instr.unitLegal, hi, if_true, decide_eq_true_eq] using hu
      exact datapath_eq_outcome_of_layout hi hl
    | false =>
      have hc : s.cfg.IntegerLegal := by
        simpa only [Instr.unitLegal, hi, Bool.false_eq_true, if_false, decide_eq_true_eq] using hu
      exact datapath_eq_outcome_of_integer hi hc hfit
  exact ⟨_, exec_of_wellFormed hw, onlyOutputs_drive s _, by rw [State.drive_answer, hout]⟩

end Sys2Proof.Machine
end

section
/-! PROOFS. How many operand pairs fail: for a division a column and one pair (R75), for the adder unit an interval of second
operands beside each first one (R63). -/
namespace Sys2Proof.Machine

/-! ## The failing pairs of a division (R75) -/

theorem divisionGuard_value_ok_eq_false {c : Config} {a b p : Pattern} :
    (divisionGuard c a b (.value p)).ok = false ↔ sval b = 0 ∨ sval a = smin c ∧ sval b = -1 := by
  unfold divisionGuard
  split_ifs with h0 hex
  · exact iff_of_true rfl (.inl h0)
  · exact iff_of_true rfl (.inr hex)
  · exact iff_of_false nofun (not_or.mpr ⟨h0, hex⟩)

/-- The four divisions fail on the column of the zero divisor and on the pair of the minimum and −1. -/
theorem division_fails_iff {c : Config} (hc : c.IntegerLegal) {f : Pattern → Pattern → Instr}
    (hf : f ∈ [Instr.div, Instr.rem, Instr.dive, Instr.reme]) {m n : Nat} (hm : m < 2 ^ c.W) (hn : n < 2 ^ c.W) :
    (outcome c (f (upat c.W m) (upat c.W n))).ok = false ↔ n = 0 ∨ m = 2 ^ (c.W - 1) ∧ n = 2 ^ c.W - 1 := by
  have hguard : (outcome c (f (upat c.W m) (upat c.W n))).ok = false
      ↔ sval (upat c.W n) = 0 ∨ sval (upat c.W m) = smin c ∧ sval (upat c.W n) = -1 := by
    simp only [List.mem_cons, List.not_mem_nil, or_false] at hf
    obtain rfl | rfl | rfl | rfl := hf <;> exact divisionGuard_value_ok_eq_false
  rw [hguard, sval_eq_zero_iff hc rfl, sval_eq_smin_iff hc rfl, sval_eq_neg_one_iff hc rfl, upat_uval_of_lt hm,
    upat_uval_of_lt hn]

/-- Settles O51: the failing pairs are `2^W` with a zero divisor, and one more. -/
theorem divisionFailsOnTwoToTheWPlusOnePairs : Obligations.DivisionFailsOnTwoToTheWPlusOnePairs := by
  intro c hc f hf
  have hW := two_pow_W hc
  have hH : 0 < 2 ^ (c.W - 1) := by positivity
  have hset : ((Finset.range (2 ^ c.W) ×ˢ Finset.range (2 ^ c.W)).filter
      fun p => (outcome c (f (upat c.W p.1) (upat c.W p.2))).ok = false)
        = Finset.cons (2 ^ (c.W - 1), 2 ^ c.W - 1) (Finset.range (2 ^ c.W) ×ˢ {0}) (by simp; omega) := by
    ext ⟨m, n⟩
    simp only [Finset.mem_filter, Finset.mem_product, Finset.mem_range, Finset.mem_cons, Finset.mem_singleton, Prod.mk.injEq]
    constructor
    · rintro ⟨⟨hm, hn⟩, hfail⟩
      have := (division_fails_iff hc hf hm hn).mp hfail
      omega
    · intro h
      have hm : m < 2 ^ c.W := by omega
      have hn : n < 2 ^ c.W := by omega
      exact ⟨⟨hm, hn⟩, (division_fails_iff hc hf hm hn).mpr (by omega)⟩
  rw [hset, Finset.card_cons, Finset.card_product, Finset.card_range, Finset.card_singleton, mul_one]

/-! ## The failing pairs of the adder unit (R63) -/

/-- The pairs below `n` of a row that is an interval. -/
theorem card_filter_range_of_interval {n lo hi : Nat} {P : Nat → Prop} [DecidablePred P] (hhi : hi ≤ n)
    (h : ∀ b < n, P b ↔ lo ≤ b ∧ b < hi) : ((Finset.range n).filter P).card = hi - lo := by
  have hset : (Finset.range n).filter P = Finset.Ico lo hi := by
    ext b
    rw [Finset.mem_filter, Finset.mem_range, Finset.mem_Ico]
    constructor
    · rintro ⟨hb, hP⟩
      exact (h b hb).mp hP
    · rintro ⟨hlo, hlt⟩
      exact ⟨hlt.trans_le hhi, (h b (hlt.trans_le hhi)).mpr ⟨hlo, hlt⟩⟩
  rw [hset, Nat.card_Ico]

/-- Pairs below `2·H` that lie on an interval in every row, counted by the two rows `k` and `H + k` together. -/
theorem card_filter_of_rows {H : Nat} {P : Nat × Nat → Prop} [DecidablePred P] {lo hi lo' hi' : Nat → Nat}
    (hbound : ∀ k < H, hi k ≤ 2 * H ∧ hi' k ≤ 2 * H) (hrow : ∀ k < H, ∀ b < 2 * H, P (k, b) ↔ lo k ≤ b ∧ b < hi k)
    (hrow' : ∀ k < H, ∀ b < 2 * H, P (H + k, b) ↔ lo' k ≤ b ∧ b < hi' k) :
    ((Finset.range (2 * H) ×ˢ Finset.range (2 * H)).filter P).card
      = ∑ k ∈ Finset.range H, ((hi k - lo k) + (hi' k - lo' k)) := by
  have hrows : ((Finset.range (2 * H) ×ˢ Finset.range (2 * H)).filter P).card
      = ∑ a ∈ Finset.range (H + H), ((Finset.range (2 * H)).filter fun b => P (a, b)).card := by
    simp only [Finset.card_filter, Finset.sum_product, two_mul]
  rw [hrows, Finset.sum_range_add, ← Finset.sum_add_distrib]
  refine Finset.sum_congr rfl fun k hk => ?_
  have hk' : k < H := Finset.mem_range.mp hk
  rw [card_filter_range_of_interval (hbound k hk').1 (hrow k hk'), card_filter_range_of_interval (hbound k hk').2 (hrow' k hk')]

/-- The signed reading of the pattern of a number below `2^W`. -/
theorem sval_upat_cases {c : Config} (hc : c.IntegerLegal) {n : Nat} (hn : n < 2 * 2 ^ (c.W - 1)) :
    n < 2 ^ (c.W - 1) ∧ sval (upat c.W n) = n
      ∨ 2 ^ (c.W - 1) ≤ n ∧ sval (upat c.W n) = n - 2 * (2 ^ (c.W - 1) : Nat) := by
  have huval : (upat c.W n).uval = n := upat_uval_of_lt (by rwa [two_pow_W hc])
  have hcases := sval_cases hc (upat_width c.W n)
  obtain ⟨hlo, hhi⟩ := representable_sval hc (upat_width c.W n)
  rw [huval] at hcases
  push_cast
  zify
  simp only [smin, smax] at hlo hhi
  omega

/-- Overflow of a checked sum, in natural numbers. -/
theorem checked_eq_overflow_iff_nat {c : Config} {r : Int} :
    checked c r = .overflow ↔ r < -(2 ^ (c.W - 1) : Nat) ∨ ((2 ^ (c.W - 1) : Nat) : Int) ≤ r := by
  rw [checked_eq_overflow, Representable, smin, smax]
  push_cast
  omega

/-! ## The rows of each operation -/

section
variable {c : Config} (hc : c.IntegerLegal) {k b : Nat} (hk : k < 2 ^ (c.W - 1)) (hb : b < 2 * 2 ^ (c.W - 1))
include hc hk hb

/-- The three numbers of a pair: the first operand of the lower and of the upper row, and the second operand. -/
theorem row_readings : sval (upat c.W k) = k ∧ sval (upat c.W (2 ^ (c.W - 1) + k)) = k - (2 ^ (c.W - 1) : Nat)
    ∧ (upat c.W b).uval = b := by
  have hlow := sval_upat_cases hc (n := k) (by omega)
  have hhigh := sval_upat_cases hc (n := 2 ^ (c.W - 1) + k) (by omega)
  refine ⟨by omega, by omega, upat_uval_of_lt (by rwa [two_pow_W hc])⟩

theorem add_overflow_rows :
    (outcome c (.add (upat c.W k) (upat c.W b)) = .overflow ↔ 2 ^ (c.W - 1) - k ≤ b ∧ b < 2 ^ (c.W - 1))
      ∧ (outcome c (.add (upat c.W (2 ^ (c.W - 1) + k)) (upat c.W b)) = .overflow
        ↔ 2 ^ (c.W - 1) ≤ b ∧ b < 2 * 2 ^ (c.W - 1) - k) := by
  obtain ⟨hlow, hhigh, -⟩ := row_readings hc hk hb
  have hB := sval_upat_cases hc hb
  rw [outcome, outcome, addAnswer, addAnswer, hlow, hhigh, checked_eq_overflow_iff_nat, checked_eq_overflow_iff_nat]
  omega

theorem sub_overflow_rows :
    (outcome c (.sub (upat c.W k) (upat c.W b)) = .overflow ↔ 2 ^ (c.W - 1) ≤ b ∧ b < 2 ^ (c.W - 1) + k + 1)
      ∧ (outcome c (.sub (upat c.W (2 ^ (c.W - 1) + k)) (upat c.W b)) = .overflow ↔ k + 1 ≤ b ∧ b < 2 ^ (c.W - 1)) := by
  obtain ⟨hlow, hhigh, -⟩ := row_readings hc hk hb
  have hB := sval_upat_cases hc hb
  rw [outcome, outcome, subAnswer, subAnswer, hlow, hhigh, checked_eq_overflow_iff_nat, checked_eq_overflow_iff_nat]
  omega

theorem addu_overflow_rows :
    (outcome c (.addu (upat c.W k) (upat c.W b)) = .overflow ↔ 2 ^ (c.W - 1) - k ≤ b ∧ b < 2 * 2 ^ (c.W - 1))
      ∧ (outcome c (.addu (upat c.W (2 ^ (c.W - 1) + k)) (upat c.W b)) = .overflow
        ↔ 2 * 2 ^ (c.W - 1) - k ≤ b ∧ b < 2 * 2 ^ (c.W - 1)) := by
  obtain ⟨hlow, hhigh, hB⟩ := row_readings hc hk hb
  rw [outcome, outcome, adduAnswer, adduAnswer, hlow, hhigh, hB, checked_eq_overflow_iff_nat, checked_eq_overflow_iff_nat]
  omega

theorem subu_overflow_rows :
    (outcome c (.subu (upat c.W k) (upat c.W b)) = .overflow ↔ 2 ^ (c.W - 1) + k + 1 ≤ b ∧ b < 2 * 2 ^ (c.W - 1))
      ∧ (outcome c (.subu (upat c.W (2 ^ (c.W - 1) + k)) (upat c.W b)) = .overflow
        ↔ k + 1 ≤ b ∧ b < 2 * 2 ^ (c.W - 1)) := by
  obtain ⟨hlow, hhigh, hB⟩ := row_readings hc hk hb
  rw [outcome, outcome, subuAnswer, subuAnswer, hlow, hhigh, hB, checked_eq_overflow_iff_nat, checked_eq_overflow_iff_nat]
  omega

end

/-! ## The counts -/

/-- The overflows of an operation whose rows are intervals, the rows `k` and `2^(W−1) + k` together being `g k` long. -/
theorem overflow_card {c : Config} (hc : c.IntegerLegal) {f : Pattern → Pattern → Instr} {lo hi lo' hi' g : Nat → Nat}
    (hrows : ∀ k < 2 ^ (c.W - 1), ∀ b < 2 * 2 ^ (c.W - 1),
      (outcome c (f (upat c.W k) (upat c.W b)) = .overflow ↔ lo k ≤ b ∧ b < hi k)
        ∧ (outcome c (f (upat c.W (2 ^ (c.W - 1) + k)) (upat c.W b)) = .overflow ↔ lo' k ≤ b ∧ b < hi' k))
    (hlen : ∀ k < 2 ^ (c.W - 1), hi k ≤ 2 * 2 ^ (c.W - 1) ∧ hi' k ≤ 2 * 2 ^ (c.W - 1)
      ∧ hi k - lo k + (hi' k - lo' k) = g k) :
    ((Finset.range (2 ^ c.W) ×ˢ Finset.range (2 ^ c.W)).filter
        fun p => outcome c (f (upat c.W p.1) (upat c.W p.2)) = .overflow).card = ∑ k ∈ Finset.range (2 ^ (c.W - 1)), g k := by
  have hbound : ∀ k < 2 ^ (c.W - 1), hi k ≤ 2 * 2 ^ (c.W - 1) ∧ hi' k ≤ 2 * 2 ^ (c.W - 1) := fun k hk => by
    obtain ⟨h, h', -⟩ := hlen k hk
    exact ⟨h, h'⟩
  rw [two_pow_W hc, card_filter_of_rows hbound (fun k hk b hb => (hrows k hk b hb).1) fun k hk b hb => (hrows k hk b hb).2]
  refine Finset.sum_congr rfl fun k hk => ?_
  obtain ⟨-, -, hg⟩ := hlen k (Finset.mem_range.mp hk)
  exact hg

theorem sum_range_const (n : Nat) : ∑ _k ∈ Finset.range n, n = n ^ 2 := by
  rw [Finset.sum_const, Finset.card_range, smul_eq_mul, sq]

theorem sum_range_add_two_mul (n : Nat) : ∑ k ∈ Finset.range n, (n + 2 * k) = n * (2 * n - 1) := by
  rw [Finset.sum_add_distrib, sum_range_const, ← Finset.mul_sum, mul_comm 2, Finset.sum_range_id_mul_two, sq, ← mul_add]
  congr 1
  omega

/-- Settles O52: the two rows together hold `H` failing pairs for ADD and SUB, and `H + 2·k` or `H + 2·(H − 1 − k)` for the
unsigned forms. -/
theorem adderFailsOnCountedPairs : Obligations.AdderFailsOnCountedPairs := by
  intro c hc
  refine ⟨?_, ?_, ?_, ?_⟩
  · exact (overflow_card hc (g := fun _ => 2 ^ (c.W - 1)) (fun _ hk _ hb => add_overflow_rows hc hk hb)
      fun k hk => by omega).trans (sum_range_const _)
  · exact (overflow_card hc (g := fun _ => 2 ^ (c.W - 1)) (fun _ hk _ hb => sub_overflow_rows hc hk hb)
      fun k hk => by omega).trans (sum_range_const _)
  · exact (overflow_card hc (g := fun k => 2 ^ (c.W - 1) + 2 * k) (fun _ hk _ hb => addu_overflow_rows hc hk hb)
      fun k hk => by omega).trans (sum_range_add_two_mul _)
  · exact ((overflow_card hc (g := fun k => 2 ^ (c.W - 1) + 2 * (2 ^ (c.W - 1) - 1 - k))
      (fun _ hk _ hb => subu_overflow_rows hc hk hb) fun k hk => by omega).trans
      (Finset.sum_range_reflect (fun k => 2 ^ (c.W - 1) + 2 * k) _)).trans (sum_range_add_two_mul _)

end Sys2Proof.Machine
end
